-- ==== Sys2Proof/Word.lean ====
section
/-! DEFINITION. The word types of the SF-9 and their plainest arithmetic: 64-bit scalar words, 32-bit instruction
words, bytes, and the sparse maps in which the state holds its many like things (00_scope R2, R4). -/

namespace Sys2Proof

/-- One byte (00_scope R2). -/
abbrev Byte := BitVec 8
/-- A 32-bit instruction word (10_encoding R156). -/
abbrev Word32 := BitVec 32
/-- A 64-bit scalar register or address (03_state R31). -/
abbrev Word := BitVec 64
/-- The number of a scalar register, s0 to s63 (03_state R31). -/
abbrev SReg := BitVec 6
/-- A vector register field: the window position of a slot (03_state R32). -/
abbrev VReg := BitVec 7
/-- A mask register, m0 to m7 (03_state R36). -/
abbrev MReg := BitVec 3
/-- A tile register, t0 to t7 (03_state R37). -/
abbrev TReg := BitVec 3

/-- Bits hi to lo of a number (00_scope, pseudocode `bits`). -/
def bitsOf (x hi lo : Nat) : Nat := x / 2 ^ lo % 2 ^ (hi + 1 - lo)

/-- Bit k of a number. -/
def bitAt (x k : Nat) : Bool := x / 2 ^ k % 2 == 1

/-- The signed value of the low w bits of x (12_ref_vector R208 `sx`). -/
def sx (w x : Nat) : Int := if x % 2 ^ w < 2 ^ (w - 1) then (x % 2 ^ w : Nat) else (x % 2 ^ w : Nat) - (2 ^ w : Nat)

/-- An integer reduced modulo 2^w (04_numbers R46). -/
def wrapInt (w : Nat) (x : Int) : Nat := (x % (2 ^ w : Nat)).toNat

/-- The ceiling of a / b. -/
def ceilDiv (a b : Nat) : Nat := (a + b - 1) / b

/-- x rounded up to a multiple of m. -/
def roundUp (x m : Nat) : Nat := ceilDiv x m * m

/-- The list 0, 1, …, n − 1. -/
abbrev upto (n : Nat) : List Nat := List.range n

/-- A sparse table from numbers to values: plain data, at most one entry a key after `Map.set`. -/
abbrev Map (α : Type) := List (Nat × α)

/-- The value at a key, if one is listed. -/
def Map.get? {α : Type} (m : Map α) (k : Nat) : Option α :=
  match m with
  | [] => none
  | (j, v) :: rest => if j = k then some v else Map.get? rest k

/-- The value at a key, or the default. -/
def Map.getD {α : Type} (m : Map α) (k : Nat) (d : α) : α := (Map.get? m k).getD d

/-- The table with one key removed. -/
def Map.erase {α : Type} (m : Map α) (k : Nat) : Map α :=
  match m with
  | [] => []
  | (j, v) :: rest => if j = k then Map.erase rest k else (j, v) :: Map.erase rest k

/-- The table with one key set. -/
def Map.set {α : Type} (m : Map α) (k : Nat) (v : α) : Map α :=
  match m with
  | [] => [(k, v)]
  | (j, u) :: rest => if j = k then (k, v) :: Map.erase rest k else (j, u) :: Map.set rest k v

/-- The table with one key set or, for none, removed. -/
def Map.put {α : Type} (m : Map α) (k : Nat) : Option α → Map α
  | some v => Map.set m k v
  | none => Map.erase m k

/-- The listed keys. -/
def Map.keys {α : Type} (m : Map α) : List Nat := m.map Prod.fst

theorem Map.get?_erase_self {α : Type} (m : Map α) (k : Nat) : Map.get? (Map.erase m k) k = none := by
  induction m with
  | nil => rfl
  | cons p m ih =>
    obtain ⟨j, v⟩ := p
    by_cases h : j = k <;> simp [Map.erase, Map.get?, h, ih]

theorem Map.get?_erase_ne {α : Type} (m : Map α) (k l : Nat) (h : l ≠ k) :
    Map.get? (Map.erase m k) l = Map.get? m l := by
  induction m with
  | nil => rfl
  | cons p m ih =>
    obtain ⟨j, v⟩ := p
    by_cases hj : j = k
    · have : j ≠ l := fun e => h (e ▸ hj)
      simp only [Map.erase, hj, if_true, Map.get?, ih]
      rw [if_neg (fun e => h e.symm)]
    · simp only [Map.erase, hj, if_false, Map.get?, ih]

@[simp] theorem Map.get?_set_self {α : Type} (m : Map α) (k : Nat) (v : α) :
    Map.get? (Map.set m k v) k = some v := by
  induction m with
  | nil => simp [Map.set, Map.get?]
  | cons p m ih =>
    obtain ⟨j, u⟩ := p
    by_cases h : j = k <;> simp [Map.set, Map.get?, h, ih]

theorem Map.get?_set_ne {α : Type} (m : Map α) (k l : Nat) (v : α) (h : l ≠ k) :
    Map.get? (Map.set m k v) l = Map.get? m l := by
  induction m with
  | nil => simp [Map.set, Map.get?, Ne.symm h]
  | cons p m ih =>
    obtain ⟨j, u⟩ := p
    by_cases hj : j = k
    · subst hj
      simp only [Map.set, if_true, Map.get?, if_neg (Ne.symm h)]
      exact Map.get?_erase_ne m j l h
    · simp only [Map.set, hj, if_false, Map.get?, ih]

end Sys2Proof
end

