-- ==== Sys2Proof/Syntax.lean ====
section
/-! DEFINITION. The syntax of the machine: the operand kinds of the instruction words (10_encoding), the fault causes
(25_faults R344), and `Instr`, one constructor a row of spec/opcode_table.json. The last 48 constructors are the steps
of the part that have no word; their arguments choose the object the step acts on. -/

namespace Sys2Proof

/-- The format tags and their codes (04_numbers R45). -/
inductive Tag where
  | raw | i8 | i16 | i32 | n8 | n16 | n32 | f32 | f16 | bf16 | e4m3 | e5m2 | e2m1 | e8m0
  deriving DecidableEq, Repr

/-- The 4-bit code of a tag (R45). -/
def Tag.code : Tag → Nat
  | .raw => 0 | .i8 => 1 | .i16 => 2 | .i32 => 3 | .n8 => 4 | .n16 => 5 | .n32 => 6 | .f32 => 7
  | .f16 => 8 | .bf16 => 9 | .e4m3 => 10 | .e5m2 => 11 | .e2m1 => 12 | .e8m0 => 13

/-- The tag of a code; 0xE and 0xF are reserved (R45). -/
def Tag.ofCode : Nat → Option Tag
  | 0 => some .raw | 1 => some .i8 | 2 => some .i16 | 3 => some .i32 | 4 => some .n8 | 5 => some .n16
  | 6 => some .n32 | 7 => some .f32 | 8 => some .f16 | 9 => some .bf16 | 10 => some .e4m3 | 11 => some .e5m2
  | 12 => some .e2m1 | 13 => some .e8m0 | _ => none

/-- The element width in bits of a tag (R45). -/
def Tag.width : Tag → Nat
  | .raw => 32 | .i8 => 8 | .i16 => 16 | .i32 => 32 | .n8 => 8 | .n16 => 16 | .n32 => 32 | .f32 => 32
  | .f16 => 16 | .bf16 => 16 | .e4m3 => 8 | .e5m2 => 8 | .e2m1 => 4 | .e8m0 => 8

/-- The orders of ORD2 (10_encoding R168). -/
inductive Order where
  | rlx | acq | rel | ar
  deriving DecidableEq, Repr

def Order.code : Order → Nat
  | .rlx => 0 | .acq => 1 | .rel => 2 | .ar => 3

def Order.ofCode : Nat → Option Order
  | 0 => some .rlx | 1 => some .acq | 2 => some .rel | 3 => some .ar | _ => none

/-- The five scopes of SC3 (10_encoding R167). -/
inductive Scope where
  | core | cluster | die | device | system
  deriving DecidableEq, Repr

def Scope.code : Scope → Nat
  | .core => 0 | .cluster => 1 | .die => 2 | .device => 3 | .system => 4

/-- Codes 101 to 111 name no scope (R167). -/
def Scope.ofCode : Nat → Option Scope
  | 0 => some .core | 1 => some .cluster | 2 => some .die | 3 => some .device | 4 => some .system | _ => none

/-- The request types of RT2 (10_encoding R169, 05_memory_spaces R68). -/
inductive ReqType where
  | own | wt | si | uc
  deriving DecidableEq, Repr

def ReqType.code : ReqType → Nat
  | .own => 0 | .wt => 1 | .si => 2 | .uc => 3

def ReqType.ofCode : Nat → Option ReqType
  | 0 => some .own | 1 => some .wt | 2 => some .si | 3 => some .uc | _ => none

/-- The load types of TAG3 (10_encoding R170). -/
inductive LoadType where
  | i8 | i16 | i32 | f32 | f16 | bf16 | e4m3 | e2m1
  deriving DecidableEq, Repr

def LoadType.code : LoadType → Nat
  | .i8 => 0 | .i16 => 1 | .i32 => 2 | .f32 => 3 | .f16 => 4 | .bf16 => 5 | .e4m3 => 6 | .e2m1 => 7

def LoadType.ofCode : Nat → Option LoadType
  | 0 => some .i8 | 1 => some .i16 | 2 => some .i32 | 3 => some .f32 | 4 => some .f16 | 5 => some .bf16
  | 6 => some .e4m3 | 7 => some .e2m1 | _ => none

/-- The tag a load type gives the register (R170, 13_ref_memory R235). -/
def LoadType.tag : LoadType → Tag
  | .i8 => .i8 | .i16 => .i16 | .i32 => .i32 | .f32 => .f32 | .f16 => .f16 | .bf16 => .bf16 | .e4m3 => .e4m3
  | .e2m1 => .e2m1

/-- The operations of VREDM, OPR3 (13_ref_memory R240). -/
inductive RedOp where
  | add | fadd | max | min | maxn | minn | and | or
  deriving DecidableEq, Repr

def RedOp.code : RedOp → Nat
  | .add => 0 | .fadd => 1 | .max => 2 | .min => 3 | .maxn => 4 | .minn => 5 | .and => 6 | .or => 7

def RedOp.ofCode : Nat → Option RedOp
  | 0 => some .add | 1 => some .fadd | 2 => some .max | 3 => some .min | 4 => some .maxn | 5 => some .minn
  | 6 => some .and | 7 => some .or | _ => none

/-- The second operand of the V format: FM 00 VV, 01 VS, 10 VI (10_encoding R157). -/
inductive Src where
  | v (b : VReg)
  | s (b : SReg)
  | i (imm : BitVec 7)
  deriving DecidableEq, Repr

/-- The causes of 25_faults R344. -/
inductive Cause where
  | illegal | privilege | registerRange | format | vlRange | misalign | notPresent | protection | pageType
  | writeAfterSeal | appendBeyond | shape | arrivalOverflow | scratchpadRange | gate | stream | fp | trap | break_
  | dataLost | stallCapacity | launchRange | queueRecord | preempt
  deriving DecidableEq, Repr

/-- The 8-bit code of a cause (R344). -/
def Cause.code : Cause → Nat
  | .illegal => 0x01 | .privilege => 0x02 | .registerRange => 0x03 | .format => 0x04 | .vlRange => 0x05
  | .misalign => 0x06 | .notPresent => 0x07 | .protection => 0x08 | .pageType => 0x09 | .writeAfterSeal => 0x0A
  | .appendBeyond => 0x0B | .shape => 0x0C | .arrivalOverflow => 0x0D | .scratchpadRange => 0x0E | .gate => 0x0F
  | .stream => 0x10 | .fp => 0x11 | .trap => 0x12 | .break_ => 0x13 | .dataLost => 0x14 | .stallCapacity => 0x15
  | .launchRange => 0x16 | .queueRecord => 0x17 | .preempt => 0x18

/-- The units that count corrected soft errors (27_platform R363). -/
inductive SoftUnit where
  | laneGroup (core group : Nat)
  | l2Way (slice way : Nat)
  | memoryRow (stack row : Nat)
  deriving DecidableEq, Repr

/-- The AMO functions that an access from outside may carry (13_ref_memory R241). -/
inductive RemoteAmo where
  | swap | add | and | or | max | min | maxn | minn | cas
  deriving DecidableEq, Repr

/-- What an access from outside the device does at its home: the accesses of a strand of another device, or of the host
(16_order_wide R294, 24_translation R342). `amo` carries its operand and, for `cas`, the new value; `reduce` is an
element of VREDM, `copyReduce` one of a reducing TCOPY with its ROP (05 R79, 08 R125), `nibble` an element of an E2M1 VST (13 R237); `propose` and `oread` carry
the generation of the translation they used (R341). -/
inductive RemoteOp where
  | read (size : Nat)
  | write (data : List Byte)
  | amo (f : RemoteAmo) (x y : Word)
  | reduce (o : RedOp) (t : Tag) (x : Nat)
  | copyReduce (rop : Nat) (t : Tag) (x : Nat)
  | nibble (high : Bool) (x : Nat)
  | append (data : List Byte)
  | appendAt (data : List Byte)
  | sealPage
  | propose (gen : Nat) (x : Word)
  | oread (gen : Nat)
  | oclear
  deriving DecidableEq, Repr

/-- An access by the host (`peer = none`) or by a peer device to device memory, or, with `hostMemory`, a change that the
host or that peer makes to its own memory, which pages of TGT 01 and 10 name (16_order_wide R294, 24_translation R342). -/
structure RemoteReq where
  peer : Option Nat
  hostMemory : Bool
  addr : Nat
  op : RemoteOp
  deriving DecidableEq, Repr

/-- One constructor a row of spec/opcode_table.json, in the table's order. -/
inductive Instr where
  /-- VADD (R208). -/
  | vadd (m : MReg) (d : VReg) (a : VReg) (b : Src)
  /-- VSUB (R208). -/
  | vsub (m : MReg) (d : VReg) (a : VReg) (b : Src)
  /-- VMUL (R208). -/
  | vmul (m : MReg) (d : VReg) (a : VReg) (b : Src)
  /-- VMULH (R208). -/
  | vmulh (m : MReg) (d : VReg) (a : VReg) (b : Src)
  /-- VMULHN (R208). -/
  | vmulhn (m : MReg) (d : VReg) (a : VReg) (b : Src)
  /-- VMACC (R208). -/
  | vmacc (m : MReg) (d : VReg) (a : VReg) (b : Src)
  /-- VMIN (R208). -/
  | vmin (m : MReg) (d : VReg) (a : VReg) (b : Src)
  /-- VMAX (R208). -/
  | vmax (m : MReg) (d : VReg) (a : VReg) (b : Src)
  /-- VMINN (R208). -/
  | vminn (m : MReg) (d : VReg) (a : VReg) (b : Src)
  /-- VMAXN (R208). -/
  | vmaxn (m : MReg) (d : VReg) (a : VReg) (b : Src)
  /-- VAND (R209). -/
  | vand (m : MReg) (d : VReg) (a : VReg) (b : Src)
  /-- VOR (R209). -/
  | vor (m : MReg) (d : VReg) (a : VReg) (b : Src)
  /-- VXOR (R209). -/
  | vxor (m : MReg) (d : VReg) (a : VReg) (b : Src)
  /-- VSHL (R208). -/
  | vshl (m : MReg) (d : VReg) (a : VReg) (b : Src)
  /-- VSHR (R208). -/
  | vshr (m : MReg) (d : VReg) (a : VReg) (b : Src)
  /-- VSAR (R208). -/
  | vsar (m : MReg) (d : VReg) (a : VReg) (b : Src)
  /-- VADDS (R208). -/
  | vadds (m : MReg) (d : VReg) (a : VReg) (b : Src)
  /-- VSUBS (R208). -/
  | vsubs (m : MReg) (d : VReg) (a : VReg) (b : Src)
  /-- VSEQ (R211). -/
  | vseq (m : MReg) (d : MReg) (a : VReg) (b : Src)
  /-- VSNE (R211). -/
  | vsne (m : MReg) (d : MReg) (a : VReg) (b : Src)
  /-- VSLT (R211). -/
  | vslt (m : MReg) (d : MReg) (a : VReg) (b : Src)
  /-- VSLE (R211). -/
  | vsle (m : MReg) (d : MReg) (a : VReg) (b : Src)
  /-- VSLTN (R211). -/
  | vsltn (m : MReg) (d : MReg) (a : VReg) (b : Src)
  /-- VSLEN (R211). -/
  | vslen (m : MReg) (d : MReg) (a : VReg) (b : Src)
  /-- VFADD (R210). -/
  | vfadd (m : MReg) (d : VReg) (a : VReg) (b : Src)
  /-- VFSUB (R210). -/
  | vfsub (m : MReg) (d : VReg) (a : VReg) (b : Src)
  /-- VFMUL (R210). -/
  | vfmul (m : MReg) (d : VReg) (a : VReg) (b : Src)
  /-- VFMA (R210). -/
  | vfma (m : MReg) (d : VReg) (a : VReg) (b : Src)
  /-- VFMS (R210). -/
  | vfms (m : MReg) (d : VReg) (a : VReg) (b : Src)
  /-- VFDIV (R210). -/
  | vfdiv (m : MReg) (d : VReg) (a : VReg) (b : Src)
  /-- VFMIN (R210). -/
  | vfmin (m : MReg) (d : VReg) (a : VReg) (b : Src)
  /-- VFMAX (R210). -/
  | vfmax (m : MReg) (d : VReg) (a : VReg) (b : Src)
  /-- VFSEQ (R212). -/
  | vfseq (m : MReg) (d : MReg) (a : VReg) (b : Src)
  /-- VFSLT (R212). -/
  | vfslt (m : MReg) (d : MReg) (a : VReg) (b : Src)
  /-- VFSLE (R212). -/
  | vfsle (m : MReg) (d : MReg) (a : VReg) (b : Src)
  /-- VMERGE (R213). -/
  | vmerge (m : MReg) (d : VReg) (a : VReg) (b : Src)
  /-- VSLIDEUP (R214). -/
  | vslideup (m : MReg) (d : VReg) (a : VReg) (b : Src)
  /-- VSLIDEDN (R214). -/
  | vslidedn (m : MReg) (d : VReg) (a : VReg) (b : Src)
  /-- VPERM (R215). -/
  | vperm (m : MReg) (d : VReg) (a : VReg) (b : VReg)
  /-- VXCH (R216). -/
  | vxch (m : MReg) (d : VReg) (a : VReg) (b : Src)
  /-- VMOV (R217). -/
  | vmov (m : MReg) (d : VReg) (a : VReg)
  /-- VNEG (R217). -/
  | vneg (m : MReg) (d : VReg) (a : VReg)
  /-- VABS (R217). -/
  | vabs (m : MReg) (d : VReg) (a : VReg)
  /-- VNOT (R217). -/
  | vnot (m : MReg) (d : VReg) (a : VReg)
  /-- VCLZ (R217). -/
  | vclz (m : MReg) (d : VReg) (a : VReg)
  /-- VPOPCE (R217). -/
  | vpopce (m : MReg) (d : VReg) (a : VReg)
  /-- VIOTA (R218). -/
  | viota (m : MReg) (d : VReg)
  /-- VTAG (R219). -/
  | vtag (d : VReg) (a : VReg) (t : Tag)
  /-- VFNEG (R220). -/
  | vfneg (m : MReg) (d : VReg) (a : VReg)
  /-- VFABS (R220). -/
  | vfabs (m : MReg) (d : VReg) (a : VReg)
  /-- VFSQRT (R220). -/
  | vfsqrt (m : MReg) (d : VReg) (a : VReg)
  /-- VFRCP (R220). -/
  | vfrcp (m : MReg) (d : VReg) (a : VReg)
  /-- VFRSQ (R220). -/
  | vfrsq (m : MReg) (d : VReg) (a : VReg)
  /-- VFEXP2 (R220). -/
  | vfexp2 (m : MReg) (d : VReg) (a : VReg)
  /-- VFCLASS (R221). -/
  | vfclass (m : MReg) (d : VReg) (a : VReg)
  /-- VCVT (R223). -/
  | vcvt (m : MReg) (d : VReg) (a : VReg) (t : Tag) (p : BitVec 2) (e : Bool)
  /-- VREDSUM (R225). -/
  | vredsum (m : MReg) (d : SReg) (a : VReg)
  /-- VREDMAX (R225). -/
  | vredmax (m : MReg) (d : SReg) (a : VReg)
  /-- VREDMIN (R225). -/
  | vredmin (m : MReg) (d : SReg) (a : VReg)
  /-- VREDMAXN (R225). -/
  | vredmaxn (m : MReg) (d : SReg) (a : VReg)
  /-- VREDMINN (R225). -/
  | vredminn (m : MReg) (d : SReg) (a : VReg)
  /-- VREDFSUM (R226). -/
  | vredfsum (m : MReg) (d : SReg) (a : VReg)
  /-- VREDFMAX (R226). -/
  | vredfmax (m : MReg) (d : SReg) (a : VReg)
  /-- VREDFMIN (R226). -/
  | vredfmin (m : MReg) (d : SReg) (a : VReg)
  /-- VPOPC (R227). -/
  | vpopc (m : MReg) (d : SReg) (a : MReg)
  /-- VFIRST (R227). -/
  | vfirst (m : MReg) (d : SReg) (a : MReg)
  /-- MAND (R228). -/
  | mand (m : MReg) (d : MReg) (a : MReg) (b : MReg)
  /-- MOR (R228). -/
  | mor (m : MReg) (d : MReg) (a : MReg) (b : MReg)
  /-- MXOR (R228). -/
  | mxor (m : MReg) (d : MReg) (a : MReg) (b : MReg)
  /-- MANDN (R228). -/
  | mandn (m : MReg) (d : MReg) (a : MReg) (b : MReg)
  /-- MNOT (R228). -/
  | mnot (m : MReg) (d : MReg) (a : MReg)
  /-- MSET (R228). -/
  | mset (m : MReg) (d : MReg)
  /-- MCLR (R228). -/
  | mclr (m : MReg) (d : MReg)
  /-- MMOV (R228). -/
  | mmov (m : MReg) (d : MReg) (a : MReg)
  /-- VSPLAT (R229). -/
  | vsplat (m : MReg) (d : VReg) (a : SReg)
  /-- VMOVS (R230). -/
  | vmovs (m : MReg) (d : SReg) (a : VReg)
  /-- VINS (R229). -/
  | vins (m : MReg) (d : VReg) (a : SReg)
  /-- VLD (R235). -/
  | vld (m : MReg) (v : VReg) (a : SReg) (b : SReg) (t : LoadType) (u : Bool)
  /-- VST (R236). -/
  | vst (m : MReg) (v : VReg) (a : SReg) (b : SReg) (u : Bool)
  /-- VLDX (R238). -/
  | vldx (m : MReg) (v : VReg) (a : SReg) (b : VReg) (t : LoadType)
  /-- VSTX (R238). -/
  | vstx (m : MReg) (v : VReg) (a : SReg) (b : VReg)
  /-- VLDB (R239). -/
  | vldb (m : MReg) (v : VReg) (a : SReg) (b : VReg) (t : LoadType)
  /-- VREDM (R240). -/
  | vredm (m : MReg) (v : VReg) (a : SReg) (b : VReg) (o : RedOp)
  /-- MROW (R257). -/
  | mrow (d : TReg) (a : VReg) (b : SReg)
  /-- MROWS (R258). -/
  | mrows (s : MReg) (t : TReg) (a : VReg) (b : SReg)
  /-- MDRAIN (R259). -/
  | mdrain (d : VReg) (a : SReg) (e : Bool) (t : Tag)
  /-- MZERO (R260). -/
  | mzero (a : SReg) (b : SReg)
  /-- TWROW (R262). -/
  | twrow (d : TReg) (a : VReg) (b : SReg)
  /-- TRCOL (R262). -/
  | trcol (d : VReg) (a : TReg) (b : SReg)
  /-- TLDS (R263). -/
  | tlds (d : TReg) (a : SReg)
  /-- TLDM (R263). -/
  | tldm (d : TReg) (a : SReg) (b : SReg)
  /-- TSET (R261). -/
  | tset (d : TReg) (t : Tag) (b : SReg)
  /-- TCOPY (R265). -/
  | tcopy (d : SReg) (a : SReg) (b : SReg)
  /-- SBIND (R266). -/
  | sbind (d : VReg) (a : SReg) (t : Tag) (n : BitVec 2)
  /-- SFREE (R266). -/
  | sfree (n : BitVec 2)
  /-- HAPPEND (R267). -/
  | happend (a : SReg) (b : VReg)
  /-- HLOADE (R269). -/
  | hloade (d : VReg) (a : SReg) (b : VReg)
  /-- HLOADR (R268). -/
  | hloadr (d : VReg) (a : SReg) (b : SReg)
  /-- HSYNC (R270). -/
  | hsync (a : SReg)
  /-- VAPP (R248). -/
  | vapp (d : SReg) (a : SReg) (b : VReg)
  /-- VPROPOSE (R246). -/
  | vpropose (d : VReg) (a : SReg) (b : VReg)
  /-- VWAITALL (R254). -/
  | vwaitall (d : MReg) (a : SReg) (b : VReg)
  /-- VWAITANY (R254). -/
  | vwaitany (d : MReg) (a : SReg) (b : VReg)
  /-- VTOPK (R272). -/
  | vtopk (d : MReg) (a : VReg) (b : SReg)
  /-- ADD (R182). -/
  | add (d : SReg) (a : SReg) (b : SReg)
  /-- SUB (R182). -/
  | sub (d : SReg) (a : SReg) (b : SReg)
  /-- AND (R182). -/
  | and (d : SReg) (a : SReg) (b : SReg)
  /-- OR (R182). -/
  | or (d : SReg) (a : SReg) (b : SReg)
  /-- XOR (R182). -/
  | xor (d : SReg) (a : SReg) (b : SReg)
  /-- ANDN (R182). -/
  | andn (d : SReg) (a : SReg) (b : SReg)
  /-- SHL (R182). -/
  | shl (d : SReg) (a : SReg) (b : SReg)
  /-- SHR (R182). -/
  | shr (d : SReg) (a : SReg) (b : SReg)
  /-- SAR (R182). -/
  | sar (d : SReg) (a : SReg) (b : SReg)
  /-- SLT (R182). -/
  | slt (d : SReg) (a : SReg) (b : SReg)
  /-- SLTN (R182). -/
  | sltn (d : SReg) (a : SReg) (b : SReg)
  /-- MIN (R182). -/
  | min (d : SReg) (a : SReg) (b : SReg)
  /-- MAX (R182). -/
  | max (d : SReg) (a : SReg) (b : SReg)
  /-- MINN (R182). -/
  | minn (d : SReg) (a : SReg) (b : SReg)
  /-- MAXN (R182). -/
  | maxn (d : SReg) (a : SReg) (b : SReg)
  /-- MUL (R182). -/
  | mul (d : SReg) (a : SReg) (b : SReg)
  /-- MULH (R182). -/
  | mulh (d : SReg) (a : SReg) (b : SReg)
  /-- MULHN (R182). -/
  | mulhn (d : SReg) (a : SReg) (b : SReg)
  /-- DIV (R182). -/
  | div (d : SReg) (a : SReg) (b : SReg)
  /-- DIVN (R182). -/
  | divn (d : SReg) (a : SReg) (b : SReg)
  /-- REM (R182). -/
  | rem (d : SReg) (a : SReg) (b : SReg)
  /-- REMN (R182). -/
  | remn (d : SReg) (a : SReg) (b : SReg)
  /-- CLZ (R182). -/
  | clz (d : SReg) (a : SReg)
  /-- CTZ (R182). -/
  | ctz (d : SReg) (a : SReg)
  /-- POPC (R182). -/
  | popc (d : SReg) (a : SReg)
  /-- SEXTB (R182). -/
  | sextb (d : SReg) (a : SReg)
  /-- SEXTH (R182). -/
  | sexth (d : SReg) (a : SReg)
  /-- SEXTW (R182). -/
  | sextw (d : SReg) (a : SReg)
  /-- JR (R183). -/
  | jr (a : SReg)
  /-- CALLR (R183). -/
  | callr (a : SReg)
  /-- ADDI (R184). -/
  | addi (d : SReg) (a : SReg) (i : BitVec 12)
  /-- ANDI (R184). -/
  | andi (d : SReg) (a : SReg) (i : BitVec 12)
  /-- ORI (R184). -/
  | ori (d : SReg) (a : SReg) (i : BitVec 12)
  /-- XORI (R184). -/
  | xori (d : SReg) (a : SReg) (i : BitVec 12)
  /-- SLTI (R185). -/
  | slti (d : SReg) (a : SReg) (i : BitVec 12)
  /-- SLTIN (R185). -/
  | sltin (d : SReg) (a : SReg) (i : BitVec 12)
  /-- SHLI (R185). -/
  | shli (d : SReg) (a : SReg) (c : BitVec 6)
  /-- SHRI (R185). -/
  | shri (d : SReg) (a : SReg) (c : BitVec 6)
  /-- SARI (R185). -/
  | sari (d : SReg) (a : SReg) (c : BitVec 6)
  /-- LUI (R186). -/
  | lui (d : SReg) (i : BitVec 20)
  /-- ADDPC (R186). -/
  | addpc (d : SReg) (i : BitVec 20)
  /-- BEQ (R187). -/
  | beq (a : SReg) (b : SReg) (o : BitVec 12)
  /-- BNE (R187). -/
  | bne (a : SReg) (b : SReg) (o : BitVec 12)
  /-- BLT (R187). -/
  | blt (a : SReg) (b : SReg) (o : BitVec 12)
  /-- BGE (R187). -/
  | bge (a : SReg) (b : SReg) (o : BitVec 12)
  /-- BLTN (R187). -/
  | bltn (a : SReg) (b : SReg) (o : BitVec 12)
  /-- BGEN (R187). -/
  | bgen (a : SReg) (b : SReg) (o : BitVec 12)
  /-- BBS (R187). -/
  | bbs (a : SReg) (b : SReg) (o : BitVec 12)
  /-- BBC (R187). -/
  | bbc (a : SReg) (b : SReg) (o : BitVec 12)
  /-- J (R188). -/
  | j (o : BitVec 25)
  /-- CALL (R188). -/
  | call (o : BitVec 25)
  /-- LDB (R234). -/
  | ldb (d : SReg) (a : SReg) (r : ReqType) (i : BitVec 10)
  /-- LDH (R234). -/
  | ldh (d : SReg) (a : SReg) (r : ReqType) (i : BitVec 10)
  /-- LDW (R234). -/
  | ldw (d : SReg) (a : SReg) (r : ReqType) (i : BitVec 10)
  /-- LDD (R234). -/
  | ldd (d : SReg) (a : SReg) (r : ReqType) (i : BitVec 10)
  /-- LDBN (R234). -/
  | ldbn (d : SReg) (a : SReg) (r : ReqType) (i : BitVec 10)
  /-- LDHN (R234). -/
  | ldhn (d : SReg) (a : SReg) (r : ReqType) (i : BitVec 10)
  /-- LDWN (R234). -/
  | ldwn (d : SReg) (a : SReg) (r : ReqType) (i : BitVec 10)
  /-- STB (R234). -/
  | stb (d : SReg) (a : SReg) (r : ReqType) (i : BitVec 10)
  /-- STH (R234). -/
  | sth (d : SReg) (a : SReg) (r : ReqType) (i : BitVec 10)
  /-- STW (R234). -/
  | stw (d : SReg) (a : SReg) (r : ReqType) (i : BitVec 10)
  /-- STD (R234). -/
  | std (d : SReg) (a : SReg) (r : ReqType) (i : BitVec 10)
  /-- STRIP (R190). -/
  | strip (c : SReg) (n : BitVec 2) (s : BitVec 8) (o : BitVec 10)
  /-- AMOSWAP (R241). -/
  | amoswap (d : SReg) (a : SReg) (b : SReg) (o : Order) (s : Scope)
  /-- AMOADD (R241). -/
  | amoadd (d : SReg) (a : SReg) (b : SReg) (o : Order) (s : Scope)
  /-- AMOAND (R241). -/
  | amoand (d : SReg) (a : SReg) (b : SReg) (o : Order) (s : Scope)
  /-- AMOOR (R241). -/
  | amoor (d : SReg) (a : SReg) (b : SReg) (o : Order) (s : Scope)
  /-- AMOMAX (R241). -/
  | amomax (d : SReg) (a : SReg) (b : SReg) (o : Order) (s : Scope)
  /-- AMOMIN (R241). -/
  | amomin (d : SReg) (a : SReg) (b : SReg) (o : Order) (s : Scope)
  /-- AMOMAXN (R241). -/
  | amomaxn (d : SReg) (a : SReg) (b : SReg) (o : Order) (s : Scope)
  /-- AMOCAS (R241). -/
  | amocas (d : SReg) (a : SReg) (b : SReg) (o : Order) (s : Scope)
  /-- LDO (R242). -/
  | ldo (d : SReg) (a : SReg) (o : Order) (s : Scope)
  /-- STO (R242). -/
  | sto (a : SReg) (b : SReg) (o : Order) (s : Scope)
  /-- LDOW (R242). -/
  | ldow (d : SReg) (a : SReg) (o : Order) (s : Scope)
  /-- STOW (R242). -/
  | stow (a : SReg) (b : SReg) (o : Order) (s : Scope)
  /-- FENCE (R243). -/
  | fence (o : Order) (s : Scope)
  /-- VDRAIN (R244). -/
  | vdrain (s : Scope)
  /-- PROPOSE (R245). -/
  | propose (d : SReg) (a : SReg) (b : SReg) (s : Scope)
  /-- OREAD (R245). -/
  | oread (d : SReg) (a : SReg) (s : Scope)
  /-- NOP (R197). -/
  | nop
  /-- YIELD (R197). -/
  | yieldTurn
  /-- EXIT (R198). -/
  | exit
  /-- TRAP (R199). -/
  | trap (code : BitVec 12)
  /-- BREAK (R199). -/
  | brk
  /-- GATE (R200). -/
  | gate (index : BitVec 12)
  /-- GRET (R201). -/
  | gret
  /-- CLK (R202). -/
  | clk (d : SReg)
  /-- WAITUNTIL (R203). -/
  | waituntil (a : SReg)
  /-- SETVL (R191). -/
  | setvl (d : SReg) (a : SReg) (w : BitVec 2)
  /-- WINDOW (R192). -/
  | window (a : BitVec 6)
  /-- VALLOC (R193). -/
  | valloc (a : BitVec 6)
  /-- VSHRINK (R193). -/
  | vshrink (a : BitVec 6)
  /-- MFC (R195). -/
  | mfc (d : SReg) (n : BitVec 12)
  /-- MTC (R195). -/
  | mtc (d : SReg) (n : BitVec 12)
  /-- APP (R247). -/
  | app (d : SReg) (a : SReg) (b : SReg)
  /-- APPAT (R247). -/
  | appat (d : SReg) (a : SReg) (b : SReg)
  /-- SEAL (R111). -/
  | sealPage (a : SReg)
  /-- OCLEAR (R120). -/
  | oclear (a : SReg)
  /-- APPMARK (R110). -/
  | appmark (d : SReg) (a : SReg)
  /-- ABINIT (R249). -/
  | abinit (a : SReg) (b : SReg)
  /-- ABEXPECT (R249). -/
  | abexpect (a : SReg) (b : SReg)
  /-- ABARRIVE (R249). -/
  | abarrive (a : SReg)
  /-- ABWAIT (R250). -/
  | abwait (a : SReg) (b : SReg)
  /-- ABTEST (R249). -/
  | abtest (d : SReg) (a : SReg)
  /-- SRREAD (R251). -/
  | srread (d : SReg) (a : SReg)
  /-- SRTAS (R251). -/
  | srtas (d : SReg) (a : SReg) (b : SReg)
  /-- SRFADD (R251). -/
  | srfadd (d : SReg) (a : SReg) (b : SReg)
  /-- SRWAIT (R252). -/
  | srwait (d : SReg) (a : SReg) (b : SReg)
  /-- CDRAIN (R253). -/
  | cdrain (a : BitVec 6)
  /-- ENQ (R204). -/
  | enq (a : SReg) (b : SReg)
  /-- HSTAT (R271). -/
  | hstat (d : SReg) (a : SReg)
  /-- ERET (R312). -/
  | eret
  /-- MFS (R313). -/
  | mfs (d : SReg) (n : BitVec 12)
  /-- MTS (R313). -/
  | mts (d : SReg) (n : BitVec 12)
  /-- SHOOT (R314). -/
  | shoot (d : SReg) (a : SReg) (b : SReg)
  /-- TLBINV (R315). -/
  | tlbinv (a : SReg) (b : SReg)
  /-- RESUME (R316). -/
  | resume (d : SReg) (a : SReg) (b : SReg)
  /-- HALT (R317). -/
  | halt (d : SReg) (a : SReg)
  /-- FRQPOP (R318). -/
  | frqpop (d : SReg) (a : SReg)
  /-- POWER_GOOD (R359). -/
  | powerGood (ok : Bool)
  /-- DIES (R359). -/
  | diesUp (ok : Bool)
  /-- READY (R359). -/
  | ready (ok : Bool) (entry : Word)
  /-- PARTITION_COUNT_SET (R357). -/
  | partitionCountSet (n : Nat)
  /-- POWER_LIMIT_SET (R366). -/
  | powerLimitSet (watts : Nat)
  /-- ATTESTATION_REQUEST (R361). -/
  | attestationRequest (nonce : Nat)
  /-- TIME_CORRECTION (R362). -/
  | timeCorrection (ns : Int)
  /-- CORRECTED_SOFT_ERROR (R363). -/
  | correctedSoftError (unit : SoftUnit)
  /-- UNCORRECTABLE_READ (R364). -/
  | uncorrectableRead (pa : Nat)
  /-- LANE_GROUP_SLEEP (R329). -/
  | laneGroupSleep (core : Nat) (group : Nat)
  /-- LANE_GROUP_WAKE_BATCH (R329). -/
  | laneGroupWakeBatch (core : Nat)
  /-- UNTRACKED_COPY_DROP (R286). -/
  | untrackedCopyDrop (core : Nat) (line : Nat)
  /-- GATEWAY_COPY_DROP (R294). -/
  | gatewayCopyDrop (die : Nat) (line : Nat)
  /-- REMOTE_ACCESS (R294). -/
  | remoteAccess (r : RemoteReq)
  /-- WIDX_WRITE (R320). -/
  | widxWrite (part : Nat) (queue : Nat) (value : Nat)
  /-- QUEUE_STATE_WRITE (R319). -/
  | queueStateWrite (part : Nat) (queue : Nat) (value : Nat)
  /-- TASK_HEAD_CHECK (R322). -/
  | taskHeadCheck (part : Nat) (queue : Nat)
  /-- DEPENDENCE_EVALUATION (R323). -/
  | dependenceEvaluation (part : Nat) (queue : Nat)
  /-- TASK_SELECTION (R325). -/
  | taskSelection (part : Nat)
  /-- GANG_PLACEMENT (R326). -/
  | gangPlacement (part : Nat)
  /-- GANG_START (R329). -/
  | gangStart (gang : Nat)
  /-- LAUNCH_COMPLETION (R327). -/
  | launchCompletion (launch : Nat)
  /-- STALL_ROTATION (R328). -/
  | stallRotation (launch : Nat)
  /-- PD_DEFERRAL_EXPIRY (R307). -/
  | pdDeferralExpiry (strand : Nat)
  /-- FAULT_RECORD_RETRY (R310). -/
  | faultRecordRetry (part : Nat)
  /-- FLIVEN_TRAP (R309). -/
  | flivenTrap (k : Nat) (cause : Cause) (sub : Nat) (val : Word)
  /-- FLIVEN_WATCHDOG_RESET (R309). -/
  | flivenWatchdogReset (k : Nat)
  /-- WAIT_TIMEOUT (R180). -/
  | waitTimeout (strand : Nat)
  /-- COPY_CHUNK_LANDING (R132). -/
  | copyChunkLanding (core : Nat) (n : Nat)
  /-- COPY_CHUNK_LOST (R134). -/
  | copyChunkLost (core : Nat) (n : Nat)
  /-- CHANNEL_CREDIT_WAIT (R126). -/
  | channelCreditWait (strand : Nat)
  /-- TLDM_TILE_WRITE (R263). -/
  | tldmTileWrite (core : Nat)
  /-- REDUCTION_MESSAGE (R78). -/
  | reductionMessage (core : Nat) (n : Nat)
  /-- STREAM_REFILL (R140). -/
  | streamRefill (strand : Nat) (slot : Nat)
  /-- STREAM_RECORD_TAKE (R89). -/
  | streamRecordTake (stream : Nat)
  /-- COURSE_MERGE (R90). -/
  | courseMerge (stream : Nat)
  /-- COURSE_EXPIRY (R90). -/
  | courseExpiry (stream : Nat)
  /-- APPEND_RESERVATION_FILL (R106). -/
  | appendReservationFill (frame : Nat) (n : Nat)
  /-- SHOOTDOWN_ACK (R338). -/
  | shootdownAck (page : Nat) (die : Nat)
  /-- PEER_ACK_TIMEOUT (R338). -/
  | peerAckTimeout (page : Nat) (peer : Nat)
  /-- SYNC_MIRROR_UPDATE (R80). -/
  | syncMirrorUpdate (die : Nat)
  /-- UNALLOCATED_ENCODING (R171). -/
  | unallocatedEncoding (w : Word32)
  /-- WAITUNTIL_TIME_REACHED (R203). -/
  | waituntilTimeReached (strand : Nat)
  /-- START_TIME_REACHED (R323). -/
  | startTimeReached (part : Nat) (queue : Nat)
  /-- POWER_LOSS (R361). -/
  | powerLoss
  /-- LINK_FAILED_MARK_CLEAR (R338). -/
  | linkFailedMarkClear (peer : Nat)
  /-- PEER_INVALIDATION (R338). -/
  | peerInvalidation (peer : Nat) (page : Nat)
  /-- LINE_EVICTION (R68). -/
  | lineEviction (core : Nat) (line : Nat)
  deriving DecidableEq, Repr

end Sys2Proof
end

