-- ==== Sys2Proof/WellFormed.lean ====
section
/-! DEFINITION. Which terms of `Instr` an encoding stands for: the decode checks of 10_encoding R160 to R171 that
depend on the word alone (step 1 of R171, without the MX clause, which depends on the gang). -/

namespace Sys2Proof

/-- The targets with which EF is allowed (04_numbers R57). -/
def Tag.efTarget : Tag → Bool
  | .f16 | .bf16 | .e4m3 | .e5m2 => true
  | .raw | .i8 | .i16 | .i32 | .n8 | .n16 | .n32 | .f32 | .e2m1 | .e8m0 => false

/-- The MDRAIN targets (10_encoding R162). -/
def Tag.drainTarget : Tag → Bool
  | .f32 | .bf16 | .f16 | .e4m3 | .e5m2 | .e2m1 | .i8 | .i32 => true
  | .raw | .i16 | .n8 | .n16 | .n32 | .e8m0 => false

/-- The tags of TSET (10_encoding R162, 09_matrix R142). -/
def Tag.tileTag : Tag → Bool
  | .e4m3 | .e5m2 | .i8 | .bf16 | .f16 | .e2m1 => true
  | .raw | .i16 | .i32 | .n8 | .n16 | .n32 | .f32 | .e8m0 => false

/-- The tags of SBIND (10_encoding R162, 08_copies R138). -/
def Tag.streamTag : Tag → Bool
  | .i8 | .i16 | .i32 | .f32 | .f16 | .bf16 | .e4m3 => true
  | .raw | .n8 | .n16 | .n32 | .e5m2 | .e2m1 | .e8m0 => false

/-- The slides take VS, or VI with an immediate of 0 to 63 (10_encoding R160, 12_ref_vector R214). -/
def Src.isSlide : Src → Bool
  | .v _ => false
  | .s _ => true
  | .i imm => decide (imm.toNat < 64)

/-- VXCH takes VS, or VI with a distance of 1, 2, 4, 8, 16 or 32 (10_encoding R160). -/
def Src.isExchange : Src → Bool
  | .v _ => false
  | .s _ => true
  | .i imm => [1, 2, 4, 8, 16, 32].contains imm.toNat

/-- The control registers that MFC reads (03_state R41). -/
def mfcNumbers : List Nat :=
  [0x000, 0x001, 0x002, 0x003, 0x004, 0x005, 0x006, 0x010, 0x011, 0x012, 0x013, 0x014, 0x015, 0x016,
   0x020, 0x021, 0x022, 0x023, 0x024, 0x025, 0x026, 0x027, 0x028, 0x030, 0x031]

/-- The control registers that MTC may name: those marked RW or RW-L (03_state R41). -/
def mtcNumbers : List Nat := [0x010, 0x011, 0x013, 0x014, 0x015, 0x016]

/-- The system registers that MFS reads (22_privileged R308). -/
def mfsNumbers : List Nat :=
  [0x100, 0x101, 0x102, 0x103, 0x104, 0x105, 0x106, 0x110, 0x111, 0x112, 0x113, 0x114, 0x115, 0x116,
   0x117, 0x118, 0x119, 0x11A, 0x11B]

/-- The system registers that MTS may name: those not marked R (22_privileged R308). -/
def mtsNumbers : List Nat :=
  [0x100, 0x101, 0x102, 0x103, 0x104, 0x105, 0x110, 0x111, 0x112, 0x115, 0x116, 0x117, 0x118, 0x119,
   0x11A, 0x11B]

/-- The term is what some word encodes: the part of R171 step 1 that the word alone decides. The steps without a word
(the last 48 constructors) are encoded by no word. -/
def Instr.wf : Instr → Bool
  | .vadd _ _ _ _ => true
  | .vsub _ _ _ _ => true
  | .vmul _ _ _ _ => true
  | .vmulh _ _ _ _ => true
  | .vmulhn _ _ _ _ => true
  | .vmacc _ _ _ _ => true
  | .vmin _ _ _ _ => true
  | .vmax _ _ _ _ => true
  | .vminn _ _ _ _ => true
  | .vmaxn _ _ _ _ => true
  | .vand _ _ _ _ => true
  | .vor _ _ _ _ => true
  | .vxor _ _ _ _ => true
  | .vshl _ _ _ _ => true
  | .vshr _ _ _ _ => true
  | .vsar _ _ _ _ => true
  | .vadds _ _ _ _ => true
  | .vsubs _ _ _ _ => true
  | .vseq _ _ _ _ => true
  | .vsne _ _ _ _ => true
  | .vslt _ _ _ _ => true
  | .vsle _ _ _ _ => true
  | .vsltn _ _ _ _ => true
  | .vslen _ _ _ _ => true
  | .vfadd _ _ _ _ => true
  | .vfsub _ _ _ _ => true
  | .vfmul _ _ _ _ => true
  | .vfma _ _ _ _ => true
  | .vfms _ _ _ _ => true
  | .vfdiv _ _ _ _ => true
  | .vfmin _ _ _ _ => true
  | .vfmax _ _ _ _ => true
  | .vfseq _ _ _ _ => true
  | .vfslt _ _ _ _ => true
  | .vfsle _ _ _ _ => true
  | .vmerge _ _ _ _ => true
  | .vslideup _ _ _ b => b.isSlide
  | .vslidedn _ _ _ b => b.isSlide
  | .vperm _ _ _ _ => true
  | .vxch _ _ _ b => b.isExchange
  | .vmov _ _ _ => true
  | .vneg _ _ _ => true
  | .vabs _ _ _ => true
  | .vnot _ _ _ => true
  | .vclz _ _ _ => true
  | .vpopce _ _ _ => true
  | .viota _ _ => true
  | .vtag _ _ _ => true
  | .vfneg _ _ _ => true
  | .vfabs _ _ _ => true
  | .vfsqrt _ _ _ => true
  | .vfrcp _ _ _ => true
  | .vfrsq _ _ _ => true
  | .vfexp2 _ _ _ => true
  | .vfclass _ _ _ => true
  | .vcvt _ _ _ t _ e => t != .raw && (!e || t.efTarget)
  | .vredsum _ _ _ => true
  | .vredmax _ _ _ => true
  | .vredmin _ _ _ => true
  | .vredmaxn _ _ _ => true
  | .vredminn _ _ _ => true
  | .vredfsum _ _ _ => true
  | .vredfmax _ _ _ => true
  | .vredfmin _ _ _ => true
  | .vpopc _ _ _ => true
  | .vfirst _ _ _ => true
  | .mand _ _ _ _ => true
  | .mor _ _ _ _ => true
  | .mxor _ _ _ _ => true
  | .mandn _ _ _ _ => true
  | .mnot _ _ _ => true
  | .mset _ _ => true
  | .mclr _ _ => true
  | .mmov _ _ _ => true
  | .vsplat _ _ _ => true
  | .vmovs _ _ _ => true
  | .vins _ _ _ => true
  | .vld _ _ _ _ _ _ => true
  | .vst _ _ _ _ _ => true
  | .vldx _ _ _ _ t => t != .e2m1
  | .vstx _ _ _ _ => true
  | .vldb _ _ a _ t => t != .e2m1 && a != 63
  | .vredm _ _ _ _ _ => true
  | .mrow _ _ _ => true
  | .mrows _ t _ _ => t.toNat % 2 == 0
  | .mdrain _ _ e t => t.drainTarget && (!e || t.efTarget)
  | .mzero _ _ => true
  | .twrow _ _ _ => true
  | .trcol _ _ _ => true
  | .tlds _ _ => true
  | .tldm _ _ _ => true
  | .tset _ t _ => t.tileTag
  | .tcopy _ _ _ => true
  | .sbind _ _ t _ => t.streamTag
  | .sfree _ => true
  | .happend _ _ => true
  | .hloade _ a _ => a != 63
  | .hloadr _ _ _ => true
  | .hsync _ => true
  | .vapp _ _ _ => true
  | .vpropose _ _ _ => true
  | .vwaitall _ _ _ => true
  | .vwaitany _ _ _ => true
  | .vtopk _ _ _ => true
  | .add _ _ _ => true
  | .sub _ _ _ => true
  | .and _ _ _ => true
  | .or _ _ _ => true
  | .xor _ _ _ => true
  | .andn _ _ _ => true
  | .shl _ _ _ => true
  | .shr _ _ _ => true
  | .sar _ _ _ => true
  | .slt _ _ _ => true
  | .sltn _ _ _ => true
  | .min _ _ _ => true
  | .max _ _ _ => true
  | .minn _ _ _ => true
  | .maxn _ _ _ => true
  | .mul _ _ _ => true
  | .mulh _ _ _ => true
  | .mulhn _ _ _ => true
  | .div _ _ _ => true
  | .divn _ _ _ => true
  | .rem _ _ _ => true
  | .remn _ _ _ => true
  | .clz _ _ => true
  | .ctz _ _ => true
  | .popc _ _ => true
  | .sextb _ _ => true
  | .sexth _ _ => true
  | .sextw _ _ => true
  | .jr _ => true
  | .callr _ => true
  | .addi _ _ _ => true
  | .andi _ _ _ => true
  | .ori _ _ _ => true
  | .xori _ _ _ => true
  | .slti _ _ _ => true
  | .sltin _ _ _ => true
  | .shli _ _ _ => true
  | .shri _ _ _ => true
  | .sari _ _ _ => true
  | .lui _ _ => true
  | .addpc _ _ => true
  | .beq _ _ _ => true
  | .bne _ _ _ => true
  | .blt _ _ _ => true
  | .bge _ _ _ => true
  | .bltn _ _ _ => true
  | .bgen _ _ _ => true
  | .bbs _ _ _ => true
  | .bbc _ _ _ => true
  | .j _ => true
  | .call _ => true
  | .ldb _ _ _ _ => true
  | .ldh _ _ _ _ => true
  | .ldw _ _ _ _ => true
  | .ldd _ _ _ _ => true
  | .ldbn _ _ _ _ => true
  | .ldhn _ _ _ _ => true
  | .ldwn _ _ _ _ => true
  | .stb _ _ _ _ => true
  | .sth _ _ _ _ => true
  | .stw _ _ _ _ => true
  | .std _ _ _ _ => true
  | .strip c n s _ => decide (c.toNat + n.toNat + 1 ≤ 63) && decide (s.toNat < 4 ^ (n.toNat + 1))
  | .amoswap _ _ _ _ _ => true
  | .amoadd _ _ _ _ _ => true
  | .amoand _ _ _ _ _ => true
  | .amoor _ _ _ _ _ => true
  | .amomax _ _ _ _ _ => true
  | .amomin _ _ _ _ _ => true
  | .amomaxn _ _ _ _ _ => true
  | .amocas _ _ b _ _ => b != 63
  | .ldo _ _ o _ => o == .rlx || o == .acq
  | .sto _ _ o _ => o == .rlx || o == .rel
  | .ldow _ _ o _ => o == .rlx || o == .acq
  | .stow _ _ o _ => o == .rlx || o == .rel
  | .fence o _ => o != .rlx
  | .vdrain _ => true
  | .propose d _ _ _ => d != 63
  | .oread d _ _ => d != 63
  | .nop => true
  | .yieldTurn => true
  | .exit => true
  | .trap _ => true
  | .brk => true
  | .gate index => decide (index.toNat < 1024)
  | .gret => true
  | .clk _ => true
  | .waituntil _ => true
  | .setvl _ _ _ => true
  | .window a => decide (a.toNat ≤ 2)
  | .valloc a => decide (1 ≤ a.toNat) && decide (a.toNat ≤ 10)
  | .vshrink a => decide (1 ≤ a.toNat) && decide (a.toNat ≤ 10)
  | .mfc _ n => mfcNumbers.contains n.toNat
  | .mtc _ n => mtcNumbers.contains n.toNat
  | .app _ _ _ => true
  | .appat _ _ _ => true
  | .sealPage _ => true
  | .oclear _ => true
  | .appmark _ _ => true
  | .abinit _ _ => true
  | .abexpect _ _ => true
  | .abarrive _ => true
  | .abwait _ _ => true
  | .abtest _ _ => true
  | .srread _ _ => true
  | .srtas _ _ _ => true
  | .srfadd _ _ _ => true
  | .srwait _ _ _ => true
  | .cdrain a => decide (a.toNat < 8)
  | .enq _ _ => true
  | .hstat d _ => d != 63
  | .eret => true
  | .mfs _ n => mfsNumbers.contains n.toNat
  | .mts _ n => mtsNumbers.contains n.toNat
  | .shoot _ _ _ => true
  | .tlbinv _ _ => true
  | .resume _ _ _ => true
  | .halt _ _ => true
  | .frqpop d _ => d != 63
  | .powerGood _ => false
  | .diesUp _ => false
  | .ready _ _ => false
  | .partitionCountSet _ => false
  | .powerLimitSet _ => false
  | .attestationRequest _ => false
  | .timeCorrection _ => false
  | .correctedSoftError _ => false
  | .uncorrectableRead _ => false
  | .laneGroupSleep _ _ => false
  | .laneGroupWakeBatch _ => false
  | .untrackedCopyDrop _ _ => false
  | .gatewayCopyDrop _ _ => false
  | .remoteAccess _ => false
  | .widxWrite _ _ _ => false
  | .queueStateWrite _ _ _ => false
  | .taskHeadCheck _ _ => false
  | .dependenceEvaluation _ _ => false
  | .taskSelection _ => false
  | .gangPlacement _ => false
  | .gangStart _ => false
  | .launchCompletion _ => false
  | .stallRotation _ => false
  | .pdDeferralExpiry _ => false
  | .faultRecordRetry _ => false
  | .flivenTrap _ _ _ _ => false
  | .flivenWatchdogReset _ => false
  | .waitTimeout _ => false
  | .copyChunkLanding _ _ => false
  | .copyChunkLost _ _ => false
  | .channelCreditWait _ => false
  | .tldmTileWrite _ => false
  | .reductionMessage _ _ => false
  | .streamRefill _ _ => false
  | .streamRecordTake _ => false
  | .courseMerge _ => false
  | .courseExpiry _ => false
  | .appendReservationFill _ _ => false
  | .shootdownAck _ _ => false
  | .peerAckTimeout _ _ => false
  | .syncMirrorUpdate _ => false
  | .unallocatedEncoding _ => false
  | .waituntilTimeReached _ => false
  | .startTimeReached _ _ => false
  | .powerLoss => false
  | .linkFailedMarkClear _ => false
  | .peerInvalidation _ _ => false
  | .lineEviction _ _ => false

end Sys2Proof
end

