-- ==== Sys2Proof/Decode.lean ====
section
/-! DEFINITION. The decoder, total on words and on bytes, which refuses by name, and after it the encoder, both written
from the word pictures and tables of 10_encoding R157 to R166. Bits are numbered as the words are: bit 0 is the least
significant bit (00_scope R2). -/

namespace Sys2Proof

/-- Why a word encodes no instruction (10_encoding R171, step 1). -/
inductive DecodeError where
  /-- OP, FM, FX, FN, FN8, FN3, C2 or SZ2 is not allocated, or a field that must be zero is not. -/
  | notAllocated
  /-- The fields are allocated, and an operand is refused: a literal, tag, order, scope, pair or register number. -/
  | operandRefused
  /-- Fewer than four bytes. -/
  | tooShort
  deriving DecidableEq, Repr

/-- The n bits of w from bit lo up. -/
def fld (w lo n : Nat) : BitVec n := BitVec.ofNat n (w / 2 ^ lo)

/-- The second operand of a V word by FM: VV, VS with bit 6 zero, or VI (10_encoding R157). FM 11 has none. -/
def srcOf (w : Nat) : Option Src :=
  match w / 0x1000000 % 4 with
  | 0 => some (.v (fld w 0 7))
  | 1 => if w / 0x40 % 2 = 0 then some (.s (fld w 0 6)) else none
  | 2 => some (.i (fld w 0 7))
  | _ => none

/-- OP 0x00 to 0x27 in the VV, VS and VI forms (R159, R160). -/
def decodeVPlain (w : Nat) : Option Instr :=
  match w / 0x4000000 with
  | 0 => (srcOf w).bind fun b => some (.vadd (fld w 21 3) (fld w 14 7) (fld w 7 7) b)
  | 1 => (srcOf w).bind fun b => some (.vsub (fld w 21 3) (fld w 14 7) (fld w 7 7) b)
  | 2 => (srcOf w).bind fun b => some (.vmul (fld w 21 3) (fld w 14 7) (fld w 7 7) b)
  | 3 => (srcOf w).bind fun b => some (.vmulh (fld w 21 3) (fld w 14 7) (fld w 7 7) b)
  | 4 => (srcOf w).bind fun b => some (.vmulhn (fld w 21 3) (fld w 14 7) (fld w 7 7) b)
  | 5 => (srcOf w).bind fun b => some (.vmacc (fld w 21 3) (fld w 14 7) (fld w 7 7) b)
  | 6 => (srcOf w).bind fun b => some (.vmin (fld w 21 3) (fld w 14 7) (fld w 7 7) b)
  | 7 => (srcOf w).bind fun b => some (.vmax (fld w 21 3) (fld w 14 7) (fld w 7 7) b)
  | 8 => (srcOf w).bind fun b => some (.vminn (fld w 21 3) (fld w 14 7) (fld w 7 7) b)
  | 9 => (srcOf w).bind fun b => some (.vmaxn (fld w 21 3) (fld w 14 7) (fld w 7 7) b)
  | 10 => (srcOf w).bind fun b => some (.vand (fld w 21 3) (fld w 14 7) (fld w 7 7) b)
  | 11 => (srcOf w).bind fun b => some (.vor (fld w 21 3) (fld w 14 7) (fld w 7 7) b)
  | 12 => (srcOf w).bind fun b => some (.vxor (fld w 21 3) (fld w 14 7) (fld w 7 7) b)
  | 13 => (srcOf w).bind fun b => some (.vshl (fld w 21 3) (fld w 14 7) (fld w 7 7) b)
  | 14 => (srcOf w).bind fun b => some (.vshr (fld w 21 3) (fld w 14 7) (fld w 7 7) b)
  | 15 => (srcOf w).bind fun b => some (.vsar (fld w 21 3) (fld w 14 7) (fld w 7 7) b)
  | 16 => (srcOf w).bind fun b => some (.vadds (fld w 21 3) (fld w 14 7) (fld w 7 7) b)
  | 17 => (srcOf w).bind fun b => some (.vsubs (fld w 21 3) (fld w 14 7) (fld w 7 7) b)
  | 18 => if w / 0x20000 % 16 = 0 then (srcOf w).bind fun b => some (.vseq (fld w 21 3) (fld w 14 3) (fld w 7 7) b) else none
  | 19 => if w / 0x20000 % 16 = 0 then (srcOf w).bind fun b => some (.vsne (fld w 21 3) (fld w 14 3) (fld w 7 7) b) else none
  | 20 => if w / 0x20000 % 16 = 0 then (srcOf w).bind fun b => some (.vslt (fld w 21 3) (fld w 14 3) (fld w 7 7) b) else none
  | 21 => if w / 0x20000 % 16 = 0 then (srcOf w).bind fun b => some (.vsle (fld w 21 3) (fld w 14 3) (fld w 7 7) b) else none
  | 22 => if w / 0x20000 % 16 = 0 then (srcOf w).bind fun b => some (.vsltn (fld w 21 3) (fld w 14 3) (fld w 7 7) b) else none
  | 23 => if w / 0x20000 % 16 = 0 then (srcOf w).bind fun b => some (.vslen (fld w 21 3) (fld w 14 3) (fld w 7 7) b) else none
  | 24 => (srcOf w).bind fun b => some (.vfadd (fld w 21 3) (fld w 14 7) (fld w 7 7) b)
  | 25 => (srcOf w).bind fun b => some (.vfsub (fld w 21 3) (fld w 14 7) (fld w 7 7) b)
  | 26 => (srcOf w).bind fun b => some (.vfmul (fld w 21 3) (fld w 14 7) (fld w 7 7) b)
  | 27 => (srcOf w).bind fun b => some (.vfma (fld w 21 3) (fld w 14 7) (fld w 7 7) b)
  | 28 => (srcOf w).bind fun b => some (.vfms (fld w 21 3) (fld w 14 7) (fld w 7 7) b)
  | 29 => (srcOf w).bind fun b => some (.vfdiv (fld w 21 3) (fld w 14 7) (fld w 7 7) b)
  | 30 => (srcOf w).bind fun b => some (.vfmin (fld w 21 3) (fld w 14 7) (fld w 7 7) b)
  | 31 => (srcOf w).bind fun b => some (.vfmax (fld w 21 3) (fld w 14 7) (fld w 7 7) b)
  | 32 => if w / 0x20000 % 16 = 0 then (srcOf w).bind fun b => some (.vfseq (fld w 21 3) (fld w 14 3) (fld w 7 7) b) else none
  | 33 => if w / 0x20000 % 16 = 0 then (srcOf w).bind fun b => some (.vfslt (fld w 21 3) (fld w 14 3) (fld w 7 7) b) else none
  | 34 => if w / 0x20000 % 16 = 0 then (srcOf w).bind fun b => some (.vfsle (fld w 21 3) (fld w 14 3) (fld w 7 7) b) else none
  | 35 => (srcOf w).bind fun b => some (.vmerge (fld w 21 3) (fld w 14 7) (fld w 7 7) b)
  | 36 => (srcOf w).bind fun b => some (.vslideup (fld w 21 3) (fld w 14 7) (fld w 7 7) b)
  | 37 => (srcOf w).bind fun b => some (.vslidedn (fld w 21 3) (fld w 14 7) (fld w 7 7) b)
  | 39 => (srcOf w).bind fun b => some (.vxch (fld w 21 3) (fld w 14 7) (fld w 7 7) b)
  | 38 => if w / 0x1000000 % 4 = 0 then some (.vperm (fld w 21 3) (fld w 14 7) (fld w 7 7) (fld w 0 7)) else none
  | _ => none

/-- OP 0x00 with FM 11: the integer unary group, VIOTA and VTAG (R160). -/
def decodeVx00 (w : Nat) : Option Instr :=
  if w / 0x10 % 8 = 1 then if w / 0x200000 % 8 = 0 then (Tag.ofCode (w % 16)).bind fun tx => some (.vtag (fld w 14 7) (fld w 7 7) tx) else none else
  match w % 128 with
  | 0 => some (.vmov (fld w 21 3) (fld w 14 7) (fld w 7 7))
  | 1 => some (.vneg (fld w 21 3) (fld w 14 7) (fld w 7 7))
  | 2 => some (.vabs (fld w 21 3) (fld w 14 7) (fld w 7 7))
  | 3 => some (.vnot (fld w 21 3) (fld w 14 7) (fld w 7 7))
  | 4 => some (.vclz (fld w 21 3) (fld w 14 7) (fld w 7 7))
  | 5 => some (.vpopce (fld w 21 3) (fld w 14 7) (fld w 7 7))
  | 6 => if w / 0x80 % 128 = 0 then some (.viota (fld w 21 3) (fld w 14 7)) else none
  | _ => none

/-- OP 0x0A with FM 11: mask logic (R160, R228). -/
def decodeVx0A (w : Nat) : Option Instr :=
  match w / 0x8 % 16 with
  | 0 => if w / 0x400 % 16 = 0 ∧ w / 0x20000 % 16 = 0 then some (.mand (fld w 21 3) (fld w 14 3) (fld w 7 3) (fld w 0 3)) else none
  | 1 => if w / 0x400 % 16 = 0 ∧ w / 0x20000 % 16 = 0 then some (.mor (fld w 21 3) (fld w 14 3) (fld w 7 3) (fld w 0 3)) else none
  | 2 => if w / 0x400 % 16 = 0 ∧ w / 0x20000 % 16 = 0 then some (.mxor (fld w 21 3) (fld w 14 3) (fld w 7 3) (fld w 0 3)) else none
  | 3 => if w / 0x400 % 16 = 0 ∧ w / 0x20000 % 16 = 0 then some (.mandn (fld w 21 3) (fld w 14 3) (fld w 7 3) (fld w 0 3)) else none
  | 4 => if w % 8 = 0 ∧ w / 0x400 % 16 = 0 ∧ w / 0x20000 % 16 = 0 then some (.mnot (fld w 21 3) (fld w 14 3) (fld w 7 3)) else none
  | 5 => if w % 8 = 0 ∧ w / 0x80 % 128 = 0 ∧ w / 0x20000 % 16 = 0 then some (.mset (fld w 21 3) (fld w 14 3)) else none
  | 6 => if w % 8 = 0 ∧ w / 0x80 % 128 = 0 ∧ w / 0x20000 % 16 = 0 then some (.mclr (fld w 21 3) (fld w 14 3)) else none
  | 7 => if w % 8 = 0 ∧ w / 0x400 % 16 = 0 ∧ w / 0x20000 % 16 = 0 then some (.mmov (fld w 21 3) (fld w 14 3) (fld w 7 3)) else none
  | _ => none

/-- OP 0x0B with FM 11: moves between scalars and vectors (R160). -/
def decodeVx0B (w : Nat) : Option Instr :=
  match w % 128 with
  | 0 => if w / 0x2000 % 2 = 0 then some (.vsplat (fld w 21 3) (fld w 14 7) (fld w 7 6)) else none
  | 1 => if w / 0x100000 % 2 = 0 then some (.vmovs (fld w 21 3) (fld w 14 6) (fld w 7 7)) else none
  | 2 => if w / 0x2000 % 2 = 0 then some (.vins (fld w 21 3) (fld w 14 7) (fld w 7 6)) else none
  | _ => none

/-- OP 0x18 with FM 11: the floating-point unary group (R160). -/
def decodeVx18 (w : Nat) : Option Instr :=
  match w % 128 with
  | 0 => some (.vfneg (fld w 21 3) (fld w 14 7) (fld w 7 7))
  | 1 => some (.vfabs (fld w 21 3) (fld w 14 7) (fld w 7 7))
  | 2 => some (.vfsqrt (fld w 21 3) (fld w 14 7) (fld w 7 7))
  | 3 => some (.vfrcp (fld w 21 3) (fld w 14 7) (fld w 7 7))
  | 4 => some (.vfrsq (fld w 21 3) (fld w 14 7) (fld w 7 7))
  | 5 => some (.vfexp2 (fld w 21 3) (fld w 14 7) (fld w 7 7))
  | 6 => some (.vfclass (fld w 21 3) (fld w 14 7) (fld w 7 7))
  | _ => none

/-- OP 0x26 with FM 11: reductions and mask counts (R160). -/
def decodeVx26 (w : Nat) : Option Instr :=
  match w % 128 with
  | 0 => if w / 0x100000 % 2 = 0 then some (.vredsum (fld w 21 3) (fld w 14 6) (fld w 7 7)) else none
  | 1 => if w / 0x100000 % 2 = 0 then some (.vredmax (fld w 21 3) (fld w 14 6) (fld w 7 7)) else none
  | 2 => if w / 0x100000 % 2 = 0 then some (.vredmin (fld w 21 3) (fld w 14 6) (fld w 7 7)) else none
  | 3 => if w / 0x100000 % 2 = 0 then some (.vredmaxn (fld w 21 3) (fld w 14 6) (fld w 7 7)) else none
  | 4 => if w / 0x100000 % 2 = 0 then some (.vredminn (fld w 21 3) (fld w 14 6) (fld w 7 7)) else none
  | 5 => if w / 0x100000 % 2 = 0 then some (.vredfsum (fld w 21 3) (fld w 14 6) (fld w 7 7)) else none
  | 6 => if w / 0x100000 % 2 = 0 then some (.vredfmax (fld w 21 3) (fld w 14 6) (fld w 7 7)) else none
  | 7 => if w / 0x100000 % 2 = 0 then some (.vredfmin (fld w 21 3) (fld w 14 6) (fld w 7 7)) else none
  | 8 => if w / 0x400 % 16 = 0 ∧ w / 0x100000 % 2 = 0 then some (.vpopc (fld w 21 3) (fld w 14 6) (fld w 7 3)) else none
  | 9 => if w / 0x400 % 16 = 0 ∧ w / 0x100000 % 2 = 0 then some (.vfirst (fld w 21 3) (fld w 14 6) (fld w 7 3)) else none
  | _ => none

/-- The V format with FM 11, allowed under OP 0x00, 0x0A, 0x0B, 0x18, 0x23 and 0x26 (R160). -/
def decodeVx (w : Nat) : Option Instr :=
  match w / 0x4000000 with
  | 0x00 => decodeVx00 w
  | 0x0A => decodeVx0A w
  | 0x0B => decodeVx0B w
  | 0x18 => decodeVx18 w
  | 0x23 => (Tag.ofCode (w / 0x8 % 16)).bind fun tx => some (.vcvt (fld w 21 3) (fld w 14 7) (fld w 7 7) tx (fld w 1 2) (bitAt w 0))
  | 0x26 => decodeVx26 w
  | _ => none

/-- The VM and VMX formats, OP 0x28 to 0x2D (R157, R159). -/
def decodeVM (w : Nat) : Option Instr :=
  match w / 0x4000000 with
  | 40 => (LoadType.ofCode (w / 0x2 % 8)).bind fun tx => some (.vld (fld w 23 3) (fld w 16 7) (fld w 10 6) (fld w 4 6) tx (bitAt w 0))
  | 41 => if w / 0x2 % 8 = 0 then some (.vst (fld w 23 3) (fld w 16 7) (fld w 10 6) (fld w 4 6) (bitAt w 0)) else none
  | 42 => (LoadType.ofCode (w % 8)).bind fun tx => some (.vldx (fld w 23 3) (fld w 16 7) (fld w 10 6) (fld w 3 7) tx)
  | 43 => if w % 8 = 0 then some (.vstx (fld w 23 3) (fld w 16 7) (fld w 10 6) (fld w 3 7)) else none
  | 44 => (LoadType.ofCode (w % 8)).bind fun tx => some (.vldb (fld w 23 3) (fld w 16 7) (fld w 10 6) (fld w 3 7) tx)
  | 45 => (RedOp.ofCode (w % 8)).bind fun ox => some (.vredm (fld w 23 3) (fld w 16 7) (fld w 10 6) (fld w 3 7) ox)
  | _ => none

/-- The VE group, OP 0x2E, by FN (R162). -/
def decodeVE (w : Nat) : Option Instr :=
  match w / 0x200000 % 32 with
  | 0 => if w / 0x40 % 2 = 0 ∧ w / 0x20000 % 16 = 0 then some (.mrow (fld w 14 3) (fld w 7 7) (fld w 0 6)) else none
  | 1 => if w / 0x40 % 2 = 0 ∧ w / 0x100000 % 2 = 0 then some (.mrows (fld w 17 3) (fld w 14 3) (fld w 7 7) (fld w 0 6)) else none
  | 2 => if w / 0x20 % 4 = 0 ∧ w / 0x2000 % 2 = 0 then (Tag.ofCode (w % 16)).bind fun tx => some (.mdrain (fld w 14 7) (fld w 7 6) (bitAt w 4) tx) else none
  | 3 => if w / 0x40 % 2 = 0 ∧ w / 0x2000 % 256 = 0 then some (.mzero (fld w 7 6) (fld w 0 6)) else none
  | 4 => if w / 0x40 % 2 = 0 ∧ w / 0x20000 % 16 = 0 then some (.twrow (fld w 14 3) (fld w 7 7) (fld w 0 6)) else none
  | 5 => if w / 0x40 % 2 = 0 ∧ w / 0x400 % 16 = 0 then some (.trcol (fld w 14 7) (fld w 7 3) (fld w 0 6)) else none
  | 6 => if w % 128 = 0 ∧ w / 0x2000 % 2 = 0 ∧ w / 0x20000 % 16 = 0 then some (.tlds (fld w 14 3) (fld w 7 6)) else none
  | 7 => if w / 0x40 % 2 = 0 ∧ w / 0x2000 % 2 = 0 ∧ w / 0x20000 % 16 = 0 then some (.tldm (fld w 14 3) (fld w 7 6) (fld w 0 6)) else none
  | 8 => if w / 0x40 % 2 = 0 ∧ w / 0x800 % 8 = 0 ∧ w / 0x20000 % 16 = 0 then (Tag.ofCode (w / 0x80 % 16)).bind fun tx => some (.tset (fld w 14 3) tx (fld w 0 6)) else none
  | 9 => if w / 0x40 % 2 = 0 ∧ w / 0x2000 % 2 = 0 ∧ w / 0x100000 % 2 = 0 then some (.tcopy (fld w 14 6) (fld w 7 6) (fld w 0 6)) else none
  | 10 => if w / 0x40 % 2 = 0 ∧ w / 0x2000 % 2 = 0 then (Tag.ofCode (w / 0x4 % 16)).bind fun tx => some (.sbind (fld w 14 7) (fld w 7 6) tx (fld w 0 2)) else none
  | 11 => if w / 0x4 % 524288 = 0 then some (.sfree (fld w 0 2)) else none
  | 12 => if w / 0x2000 % 256 = 0 then some (.happend (fld w 7 6) (fld w 0 7)) else none
  | 13 => if w / 0x2000 % 2 = 0 then some (.hloade (fld w 14 7) (fld w 7 6) (fld w 0 7)) else none
  | 14 => if w / 0x40 % 2 = 0 ∧ w / 0x2000 % 2 = 0 then some (.hloadr (fld w 14 7) (fld w 7 6) (fld w 0 6)) else none
  | 15 => if w % 128 = 0 ∧ w / 0x2000 % 256 = 0 then some (.hsync (fld w 7 6)) else none
  | 16 => if w / 0x2000 % 2 = 0 ∧ w / 0x100000 % 2 = 0 then some (.vapp (fld w 14 6) (fld w 7 6) (fld w 0 7)) else none
  | 17 => if w / 0x2000 % 2 = 0 then some (.vpropose (fld w 14 7) (fld w 7 6) (fld w 0 7)) else none
  | 18 => if w / 0x2000 % 2 = 0 ∧ w / 0x20000 % 16 = 0 then some (.vwaitall (fld w 14 3) (fld w 7 6) (fld w 0 7)) else none
  | 19 => if w / 0x2000 % 2 = 0 ∧ w / 0x20000 % 16 = 0 then some (.vwaitany (fld w 14 3) (fld w 7 6) (fld w 0 7)) else none
  | 20 => if w / 0x40 % 2 = 0 ∧ w / 0x20000 % 16 = 0 then some (.vtopk (fld w 14 3) (fld w 7 7) (fld w 0 6)) else none
  | _ => none

/-- The scalar ALU, OP 0x30, by FN8 (R163). -/
def decodeAlu (w : Nat) : Option Instr :=
  match w % 256 with
  | 0 => some (.add (fld w 20 6) (fld w 14 6) (fld w 8 6))
  | 1 => some (.sub (fld w 20 6) (fld w 14 6) (fld w 8 6))
  | 2 => some (.and (fld w 20 6) (fld w 14 6) (fld w 8 6))
  | 3 => some (.or (fld w 20 6) (fld w 14 6) (fld w 8 6))
  | 4 => some (.xor (fld w 20 6) (fld w 14 6) (fld w 8 6))
  | 5 => some (.andn (fld w 20 6) (fld w 14 6) (fld w 8 6))
  | 6 => some (.shl (fld w 20 6) (fld w 14 6) (fld w 8 6))
  | 7 => some (.shr (fld w 20 6) (fld w 14 6) (fld w 8 6))
  | 8 => some (.sar (fld w 20 6) (fld w 14 6) (fld w 8 6))
  | 9 => some (.slt (fld w 20 6) (fld w 14 6) (fld w 8 6))
  | 10 => some (.sltn (fld w 20 6) (fld w 14 6) (fld w 8 6))
  | 11 => some (.min (fld w 20 6) (fld w 14 6) (fld w 8 6))
  | 12 => some (.max (fld w 20 6) (fld w 14 6) (fld w 8 6))
  | 13 => some (.minn (fld w 20 6) (fld w 14 6) (fld w 8 6))
  | 14 => some (.maxn (fld w 20 6) (fld w 14 6) (fld w 8 6))
  | 16 => some (.mul (fld w 20 6) (fld w 14 6) (fld w 8 6))
  | 17 => some (.mulh (fld w 20 6) (fld w 14 6) (fld w 8 6))
  | 18 => some (.mulhn (fld w 20 6) (fld w 14 6) (fld w 8 6))
  | 19 => some (.div (fld w 20 6) (fld w 14 6) (fld w 8 6))
  | 20 => some (.divn (fld w 20 6) (fld w 14 6) (fld w 8 6))
  | 21 => some (.rem (fld w 20 6) (fld w 14 6) (fld w 8 6))
  | 22 => some (.remn (fld w 20 6) (fld w 14 6) (fld w 8 6))
  | 24 => if w / 0x100 % 64 = 0 then some (.clz (fld w 20 6) (fld w 14 6)) else none
  | 25 => if w / 0x100 % 64 = 0 then some (.ctz (fld w 20 6) (fld w 14 6)) else none
  | 26 => if w / 0x100 % 64 = 0 then some (.popc (fld w 20 6) (fld w 14 6)) else none
  | 27 => if w / 0x100 % 64 = 0 then some (.sextb (fld w 20 6) (fld w 14 6)) else none
  | 28 => if w / 0x100 % 64 = 0 then some (.sexth (fld w 20 6) (fld w 14 6)) else none
  | 29 => if w / 0x100 % 64 = 0 then some (.sextw (fld w 20 6) (fld w 14 6)) else none
  | 32 => if w / 0x100 % 64 = 0 ∧ w / 0x100000 % 64 = 0 then some (.jr (fld w 14 6)) else none
  | 33 => if w / 0x100 % 64 = 0 ∧ w / 0x100000 % 64 = 0 then some (.callr (fld w 14 6)) else none
  | _ => none

/-- OP 0x31 by FN2 (R164). -/
def decodeImm (w : Nat) : Option Instr :=
  match w / 0x1000 % 4 with
  | 0 => some (.addi (fld w 20 6) (fld w 14 6) (fld w 0 12))
  | 1 => some (.andi (fld w 20 6) (fld w 14 6) (fld w 0 12))
  | 2 => some (.ori (fld w 20 6) (fld w 14 6) (fld w 0 12))
  | 3 => some (.xori (fld w 20 6) (fld w 14 6) (fld w 0 12))
  | _ => none

/-- OP 0x32 by FN2, and by IMM12 bit 6 under FN2 11 (R164, R185). -/
def decodeImm2 (w : Nat) : Option Instr :=
  match w / 0x1000 % 4 with
  | 0 => some (.slti (fld w 20 6) (fld w 14 6) (fld w 0 12))
  | 1 => some (.sltin (fld w 20 6) (fld w 14 6) (fld w 0 12))
  | 2 => if w / 0x40 % 64 = 0 then some (.shli (fld w 20 6) (fld w 14 6) (fld w 0 6)) else none
  | _ => if w / 0x40 % 2 = 0 then if w / 0x80 % 32 = 0 then some (.shri (fld w 20 6) (fld w 14 6) (fld w 0 6)) else none else if w / 0x80 % 32 = 0 then some (.sari (fld w 20 6) (fld w 14 6) (fld w 0 6)) else none

/-- OP 0x35 by C2 (R164). -/
def decodeBr1 (w : Nat) : Option Instr :=
  match w / 0x1000 % 4 with
  | 0 => some (.beq (fld w 20 6) (fld w 14 6) (fld w 0 12))
  | 1 => some (.bne (fld w 20 6) (fld w 14 6) (fld w 0 12))
  | 2 => some (.blt (fld w 20 6) (fld w 14 6) (fld w 0 12))
  | 3 => some (.bge (fld w 20 6) (fld w 14 6) (fld w 0 12))
  | _ => none

/-- OP 0x36 by C2 (R164). -/
def decodeBr2 (w : Nat) : Option Instr :=
  match w / 0x1000 % 4 with
  | 0 => some (.bltn (fld w 20 6) (fld w 14 6) (fld w 0 12))
  | 1 => some (.bgen (fld w 20 6) (fld w 14 6) (fld w 0 12))
  | 2 => some (.bbs (fld w 20 6) (fld w 14 6) (fld w 0 12))
  | 3 => some (.bbc (fld w 20 6) (fld w 14 6) (fld w 0 12))
  | _ => none

/-- OP 0x37 by L (R164). -/
def decodeJump (w : Nat) : Option Instr :=
  match w / 0x2000000 % 2 with
  | 0 => some (.j (fld w 0 25))
  | 1 => some (.call (fld w 0 25))
  | _ => none

/-- OP 0x38 by SZ2 (R164). -/
def decodeLd (w : Nat) : Option Instr :=
  match w / 0x1000 % 4 with
  | 0 => (ReqType.ofCode (w / 0x400 % 4)).bind fun rx => some (.ldb (fld w 20 6) (fld w 14 6) rx (fld w 0 10))
  | 1 => (ReqType.ofCode (w / 0x400 % 4)).bind fun rx => some (.ldh (fld w 20 6) (fld w 14 6) rx (fld w 0 10))
  | 2 => (ReqType.ofCode (w / 0x400 % 4)).bind fun rx => some (.ldw (fld w 20 6) (fld w 14 6) rx (fld w 0 10))
  | 3 => (ReqType.ofCode (w / 0x400 % 4)).bind fun rx => some (.ldd (fld w 20 6) (fld w 14 6) rx (fld w 0 10))
  | _ => none

/-- OP 0x39 by SZ2; SZ2 11 is ILLEGAL (R164). -/
def decodeLdn (w : Nat) : Option Instr :=
  match w / 0x1000 % 4 with
  | 0 => (ReqType.ofCode (w / 0x400 % 4)).bind fun rx => some (.ldbn (fld w 20 6) (fld w 14 6) rx (fld w 0 10))
  | 1 => (ReqType.ofCode (w / 0x400 % 4)).bind fun rx => some (.ldhn (fld w 20 6) (fld w 14 6) rx (fld w 0 10))
  | 2 => (ReqType.ofCode (w / 0x400 % 4)).bind fun rx => some (.ldwn (fld w 20 6) (fld w 14 6) rx (fld w 0 10))
  | _ => none

/-- OP 0x3A by SZ2 (R164). -/
def decodeSt (w : Nat) : Option Instr :=
  match w / 0x1000 % 4 with
  | 0 => (ReqType.ofCode (w / 0x400 % 4)).bind fun rx => some (.stb (fld w 20 6) (fld w 14 6) rx (fld w 0 10))
  | 1 => (ReqType.ofCode (w / 0x400 % 4)).bind fun rx => some (.sth (fld w 20 6) (fld w 14 6) rx (fld w 0 10))
  | 2 => (ReqType.ofCode (w / 0x400 % 4)).bind fun rx => some (.stw (fld w 20 6) (fld w 14 6) rx (fld w 0 10))
  | 3 => (ReqType.ofCode (w / 0x400 % 4)).bind fun rx => some (.std (fld w 20 6) (fld w 14 6) rx (fld w 0 10))
  | _ => none

/-- The AMO group, OP 0x3C, by FN3 (R165). -/
def decodeAmo (w : Nat) : Option Instr :=
  match w / 0x20 % 8 with
  | 0 => (Order.ofCode (w / 0x8 % 4)).bind fun ox => (Scope.ofCode (w % 8)).bind fun sx => some (.amoswap (fld w 20 6) (fld w 14 6) (fld w 8 6) ox sx)
  | 1 => (Order.ofCode (w / 0x8 % 4)).bind fun ox => (Scope.ofCode (w % 8)).bind fun sx => some (.amoadd (fld w 20 6) (fld w 14 6) (fld w 8 6) ox sx)
  | 2 => (Order.ofCode (w / 0x8 % 4)).bind fun ox => (Scope.ofCode (w % 8)).bind fun sx => some (.amoand (fld w 20 6) (fld w 14 6) (fld w 8 6) ox sx)
  | 3 => (Order.ofCode (w / 0x8 % 4)).bind fun ox => (Scope.ofCode (w % 8)).bind fun sx => some (.amoor (fld w 20 6) (fld w 14 6) (fld w 8 6) ox sx)
  | 4 => (Order.ofCode (w / 0x8 % 4)).bind fun ox => (Scope.ofCode (w % 8)).bind fun sx => some (.amomax (fld w 20 6) (fld w 14 6) (fld w 8 6) ox sx)
  | 5 => (Order.ofCode (w / 0x8 % 4)).bind fun ox => (Scope.ofCode (w % 8)).bind fun sx => some (.amomin (fld w 20 6) (fld w 14 6) (fld w 8 6) ox sx)
  | 6 => (Order.ofCode (w / 0x8 % 4)).bind fun ox => (Scope.ofCode (w % 8)).bind fun sx => some (.amomaxn (fld w 20 6) (fld w 14 6) (fld w 8 6) ox sx)
  | 7 => (Order.ofCode (w / 0x8 % 4)).bind fun ox => (Scope.ofCode (w % 8)).bind fun sx => some (.amocas (fld w 20 6) (fld w 14 6) (fld w 8 6) ox sx)
  | _ => none

/-- The ordered and once group, OP 0x3D, by FN3 (R165). -/
def decodeOrd (w : Nat) : Option Instr :=
  match w / 0x20 % 8 with
  | 0 => if w / 0x100 % 64 = 0 then (Order.ofCode (w / 0x8 % 4)).bind fun ox => (Scope.ofCode (w % 8)).bind fun sx => some (.ldo (fld w 20 6) (fld w 14 6) ox sx) else none
  | 1 => if w / 0x100000 % 64 = 0 then (Order.ofCode (w / 0x8 % 4)).bind fun ox => (Scope.ofCode (w % 8)).bind fun sx => some (.sto (fld w 14 6) (fld w 8 6) ox sx) else none
  | 2 => if w / 0x100 % 64 = 0 then (Order.ofCode (w / 0x8 % 4)).bind fun ox => (Scope.ofCode (w % 8)).bind fun sx => some (.ldow (fld w 20 6) (fld w 14 6) ox sx) else none
  | 3 => if w / 0x100000 % 64 = 0 then (Order.ofCode (w / 0x8 % 4)).bind fun ox => (Scope.ofCode (w % 8)).bind fun sx => some (.stow (fld w 14 6) (fld w 8 6) ox sx) else none
  | 4 => if w / 0x100 % 262144 = 0 then (Order.ofCode (w / 0x8 % 4)).bind fun ox => (Scope.ofCode (w % 8)).bind fun sx => some (.fence ox sx) else none
  | 5 => if w / 0x8 % 4 = 0 ∧ w / 0x100 % 262144 = 0 then (Scope.ofCode (w % 8)).bind fun sx => some (.vdrain sx) else none
  | 6 => if w / 0x8 % 4 = 3 then (Scope.ofCode (w % 8)).bind fun sx => some (.propose (fld w 20 6) (fld w 14 6) (fld w 8 6) sx) else none
  | 7 => if w / 0x8 % 4 = 1 ∧ w / 0x100 % 64 = 0 then (Scope.ofCode (w % 8)).bind fun sx => some (.oread (fld w 20 6) (fld w 14 6) sx) else none
  | _ => none

/-- The system group, OP 0x3E, by FN8 (R166). -/
def decodeSys (w : Nat) : Option Instr :=
  match w % 256 with
  | 0 => if w / 0x100 % 262144 = 0 then some (.nop) else none
  | 1 => if w / 0x100 % 262144 = 0 then some (.yieldTurn) else none
  | 2 => if w / 0x100 % 262144 = 0 then some (.exit) else none
  | 3 => if w / 0x100000 % 64 = 0 then some (.trap (fld w 8 12)) else none
  | 4 => if w / 0x100 % 262144 = 0 then some (.brk) else none
  | 5 => if w / 0x100000 % 64 = 0 then some (.gate (fld w 8 12)) else none
  | 6 => if w / 0x100 % 262144 = 0 then some (.gret) else none
  | 7 => if w / 0x100 % 4096 = 0 then some (.clk (fld w 20 6)) else none
  | 8 => if w / 0x100 % 64 = 0 ∧ w / 0x100000 % 64 = 0 then some (.waituntil (fld w 14 6)) else none
  | 16 => if w / 0x400 % 16 = 0 then some (.setvl (fld w 20 6) (fld w 14 6) (fld w 8 2)) else none
  | 17 => if w / 0x100 % 64 = 0 ∧ w / 0x100000 % 64 = 0 then some (.window (fld w 14 6)) else none
  | 18 => if w / 0x100 % 64 = 0 ∧ w / 0x100000 % 64 = 0 then some (.valloc (fld w 14 6)) else none
  | 19 => if w / 0x100 % 64 = 0 ∧ w / 0x100000 % 64 = 0 then some (.vshrink (fld w 14 6)) else none
  | 20 => some (.mfc (fld w 20 6) (fld w 8 12))
  | 21 => some (.mtc (fld w 20 6) (fld w 8 12))
  | 32 => some (.app (fld w 20 6) (fld w 14 6) (fld w 8 6))
  | 33 => some (.appat (fld w 20 6) (fld w 14 6) (fld w 8 6))
  | 34 => if w / 0x100 % 64 = 0 ∧ w / 0x100000 % 64 = 0 then some (.sealPage (fld w 14 6)) else none
  | 35 => if w / 0x100 % 64 = 0 ∧ w / 0x100000 % 64 = 0 then some (.oclear (fld w 14 6)) else none
  | 36 => if w / 0x100 % 64 = 0 then some (.appmark (fld w 20 6) (fld w 14 6)) else none
  | 40 => if w / 0x100000 % 64 = 0 then some (.abinit (fld w 14 6) (fld w 8 6)) else none
  | 41 => if w / 0x100000 % 64 = 0 then some (.abexpect (fld w 14 6) (fld w 8 6)) else none
  | 42 => if w / 0x100 % 64 = 0 ∧ w / 0x100000 % 64 = 0 then some (.abarrive (fld w 14 6)) else none
  | 43 => if w / 0x100000 % 64 = 0 then some (.abwait (fld w 14 6) (fld w 8 6)) else none
  | 44 => if w / 0x100 % 64 = 0 then some (.abtest (fld w 20 6) (fld w 14 6)) else none
  | 48 => if w / 0x100 % 64 = 0 then some (.srread (fld w 20 6) (fld w 14 6)) else none
  | 49 => some (.srtas (fld w 20 6) (fld w 14 6) (fld w 8 6))
  | 50 => some (.srfadd (fld w 20 6) (fld w 14 6) (fld w 8 6))
  | 51 => some (.srwait (fld w 20 6) (fld w 14 6) (fld w 8 6))
  | 56 => if w / 0x100 % 64 = 0 ∧ w / 0x100000 % 64 = 0 then some (.cdrain (fld w 14 6)) else none
  | 57 => if w / 0x100000 % 64 = 0 then some (.enq (fld w 14 6) (fld w 8 6)) else none
  | 58 => if w / 0x100 % 64 = 0 then some (.hstat (fld w 20 6) (fld w 14 6)) else none
  | 128 => if w / 0x100 % 262144 = 0 then some (.eret) else none
  | 129 => some (.mfs (fld w 20 6) (fld w 8 12))
  | 130 => some (.mts (fld w 20 6) (fld w 8 12))
  | 131 => some (.shoot (fld w 20 6) (fld w 14 6) (fld w 8 6))
  | 132 => if w / 0x100000 % 64 = 0 then some (.tlbinv (fld w 14 6) (fld w 8 6)) else none
  | 133 => some (.resume (fld w 20 6) (fld w 14 6) (fld w 8 6))
  | 134 => if w / 0x100 % 64 = 0 then some (.halt (fld w 20 6) (fld w 14 6)) else none
  | 135 => if w / 0x100 % 64 = 0 then some (.frqpop (fld w 20 6) (fld w 14 6)) else none
  | _ => none

/-- The term a word's fields give by the opcode map of R159, before the operand checks. -/
def decodeFields (w : Nat) : Option Instr :=
  match w / 0x4000000 with
  | 0x2E => decodeVE w
  | 0x30 => decodeAlu w
  | 0x31 => decodeImm w
  | 0x32 => decodeImm2 w
  | 0x33 => some (.lui (fld w 20 6) (fld w 0 20))
  | 0x34 => some (.addpc (fld w 20 6) (fld w 0 20))
  | 0x35 => decodeBr1 w
  | 0x36 => decodeBr2 w
  | 0x37 => decodeJump w
  | 0x38 => decodeLd w
  | 0x39 => decodeLdn w
  | 0x3A => decodeSt w
  | 0x3B => some (.strip (fld w 20 6) (fld w 18 2) (fld w 10 8) (fld w 0 10))
  | 0x3C => decodeAmo w
  | 0x3D => decodeOrd w
  | 0x3E => decodeSys w
  | op =>
    if op < 0x28 then (if w / 0x1000000 % 4 = 3 then decodeVx w else decodeVPlain w)
    else if op < 0x2E then decodeVM w
    else none

/-- The decoder, total on words: step 1 of R171. -/
def decode (w : Word32) : Except DecodeError Instr :=
  match decodeFields w.toNat with
  | none => .error .notAllocated
  | some i => if i.wf then .ok i else .error .operandRefused

/-- The word stored at the head of a list of bytes, little-endian (00_scope R2, R156). -/
def wordOfBytes : List Byte → Option (Word32 × List Byte)
  | b0 :: b1 :: b2 :: b3 :: rest =>
    some (BitVec.ofNat 32 (b0.toNat + b1.toNat * 0x100 + b2.toNat * 0x10000 + b3.toNat * 0x1000000), rest)
  | _ => none

/-- The decoder, total on bytes: the instruction and the bytes after it. -/
def decodeBytes (bs : List Byte) : Except DecodeError (Instr × List Byte) :=
  match wordOfBytes bs with
  | none => .error .tooShort
  | some (w, rest) =>
    match decode w with
    | .error e => .error e
    | .ok i => .ok (i, rest)

/-- The four bytes of a word as memory holds them (R156). -/
def bytesOfWord (w : Word32) : List Byte :=
  [BitVec.ofNat 8 w.toNat, BitVec.ofNat 8 (w.toNat / 0x100), BitVec.ofNat 8 (w.toNat / 0x10000),
   BitVec.ofNat 8 (w.toNat / 0x1000000)]

/-- What this decoder reads from an instruction whose bits are w, bit 0 the least significant bit of its one word. -/
def decodeTableWord (nbits w : Nat) : Option Instr :=
  match decodeBytes (bytesOfWord (BitVec.ofNat 32 (w % 2 ^ nbits))) with
  | .ok (i, _) => some i
  | .error _ => none

/-- FM and B of a V word (R157). -/
def Src.enc : Src → Nat
  | .v b => b.toNat
  | .s b => 0x1000000 + b.toNat
  | .i imm => 0x2000000 + imm.toNat

/-- The bits of an instruction's word (R157 to R166). The steps without a word get the bits of a reserved OP, and an
unallocated encoding its own word. -/
def Instr.bits : Instr → Nat
  | .vadd m d a b => 0 + m.toNat * 0x200000 + d.toNat * 0x4000 + a.toNat * 0x80 + b.enc
  | .vsub m d a b => 67108864 + m.toNat * 0x200000 + d.toNat * 0x4000 + a.toNat * 0x80 + b.enc
  | .vmul m d a b => 134217728 + m.toNat * 0x200000 + d.toNat * 0x4000 + a.toNat * 0x80 + b.enc
  | .vmulh m d a b => 201326592 + m.toNat * 0x200000 + d.toNat * 0x4000 + a.toNat * 0x80 + b.enc
  | .vmulhn m d a b => 268435456 + m.toNat * 0x200000 + d.toNat * 0x4000 + a.toNat * 0x80 + b.enc
  | .vmacc m d a b => 335544320 + m.toNat * 0x200000 + d.toNat * 0x4000 + a.toNat * 0x80 + b.enc
  | .vmin m d a b => 402653184 + m.toNat * 0x200000 + d.toNat * 0x4000 + a.toNat * 0x80 + b.enc
  | .vmax m d a b => 469762048 + m.toNat * 0x200000 + d.toNat * 0x4000 + a.toNat * 0x80 + b.enc
  | .vminn m d a b => 536870912 + m.toNat * 0x200000 + d.toNat * 0x4000 + a.toNat * 0x80 + b.enc
  | .vmaxn m d a b => 603979776 + m.toNat * 0x200000 + d.toNat * 0x4000 + a.toNat * 0x80 + b.enc
  | .vand m d a b => 671088640 + m.toNat * 0x200000 + d.toNat * 0x4000 + a.toNat * 0x80 + b.enc
  | .vor m d a b => 738197504 + m.toNat * 0x200000 + d.toNat * 0x4000 + a.toNat * 0x80 + b.enc
  | .vxor m d a b => 805306368 + m.toNat * 0x200000 + d.toNat * 0x4000 + a.toNat * 0x80 + b.enc
  | .vshl m d a b => 872415232 + m.toNat * 0x200000 + d.toNat * 0x4000 + a.toNat * 0x80 + b.enc
  | .vshr m d a b => 939524096 + m.toNat * 0x200000 + d.toNat * 0x4000 + a.toNat * 0x80 + b.enc
  | .vsar m d a b => 1006632960 + m.toNat * 0x200000 + d.toNat * 0x4000 + a.toNat * 0x80 + b.enc
  | .vadds m d a b => 1073741824 + m.toNat * 0x200000 + d.toNat * 0x4000 + a.toNat * 0x80 + b.enc
  | .vsubs m d a b => 1140850688 + m.toNat * 0x200000 + d.toNat * 0x4000 + a.toNat * 0x80 + b.enc
  | .vseq m d a b => 1207959552 + m.toNat * 0x200000 + d.toNat * 0x4000 + a.toNat * 0x80 + b.enc
  | .vsne m d a b => 1275068416 + m.toNat * 0x200000 + d.toNat * 0x4000 + a.toNat * 0x80 + b.enc
  | .vslt m d a b => 1342177280 + m.toNat * 0x200000 + d.toNat * 0x4000 + a.toNat * 0x80 + b.enc
  | .vsle m d a b => 1409286144 + m.toNat * 0x200000 + d.toNat * 0x4000 + a.toNat * 0x80 + b.enc
  | .vsltn m d a b => 1476395008 + m.toNat * 0x200000 + d.toNat * 0x4000 + a.toNat * 0x80 + b.enc
  | .vslen m d a b => 1543503872 + m.toNat * 0x200000 + d.toNat * 0x4000 + a.toNat * 0x80 + b.enc
  | .vfadd m d a b => 1610612736 + m.toNat * 0x200000 + d.toNat * 0x4000 + a.toNat * 0x80 + b.enc
  | .vfsub m d a b => 1677721600 + m.toNat * 0x200000 + d.toNat * 0x4000 + a.toNat * 0x80 + b.enc
  | .vfmul m d a b => 1744830464 + m.toNat * 0x200000 + d.toNat * 0x4000 + a.toNat * 0x80 + b.enc
  | .vfma m d a b => 1811939328 + m.toNat * 0x200000 + d.toNat * 0x4000 + a.toNat * 0x80 + b.enc
  | .vfms m d a b => 1879048192 + m.toNat * 0x200000 + d.toNat * 0x4000 + a.toNat * 0x80 + b.enc
  | .vfdiv m d a b => 1946157056 + m.toNat * 0x200000 + d.toNat * 0x4000 + a.toNat * 0x80 + b.enc
  | .vfmin m d a b => 2013265920 + m.toNat * 0x200000 + d.toNat * 0x4000 + a.toNat * 0x80 + b.enc
  | .vfmax m d a b => 2080374784 + m.toNat * 0x200000 + d.toNat * 0x4000 + a.toNat * 0x80 + b.enc
  | .vfseq m d a b => 2147483648 + m.toNat * 0x200000 + d.toNat * 0x4000 + a.toNat * 0x80 + b.enc
  | .vfslt m d a b => 2214592512 + m.toNat * 0x200000 + d.toNat * 0x4000 + a.toNat * 0x80 + b.enc
  | .vfsle m d a b => 2281701376 + m.toNat * 0x200000 + d.toNat * 0x4000 + a.toNat * 0x80 + b.enc
  | .vmerge m d a b => 2348810240 + m.toNat * 0x200000 + d.toNat * 0x4000 + a.toNat * 0x80 + b.enc
  | .vslideup m d a b => 2415919104 + m.toNat * 0x200000 + d.toNat * 0x4000 + a.toNat * 0x80 + b.enc
  | .vslidedn m d a b => 2483027968 + m.toNat * 0x200000 + d.toNat * 0x4000 + a.toNat * 0x80 + b.enc
  | .vperm m d a b => 2550136832 + m.toNat * 0x200000 + d.toNat * 0x4000 + a.toNat * 0x80 + b.toNat
  | .vxch m d a b => 2617245696 + m.toNat * 0x200000 + d.toNat * 0x4000 + a.toNat * 0x80 + b.enc
  | .vmov m d a => 50331648 + m.toNat * 0x200000 + d.toNat * 0x4000 + a.toNat * 0x80
  | .vneg m d a => 50331649 + m.toNat * 0x200000 + d.toNat * 0x4000 + a.toNat * 0x80
  | .vabs m d a => 50331650 + m.toNat * 0x200000 + d.toNat * 0x4000 + a.toNat * 0x80
  | .vnot m d a => 50331651 + m.toNat * 0x200000 + d.toNat * 0x4000 + a.toNat * 0x80
  | .vclz m d a => 50331652 + m.toNat * 0x200000 + d.toNat * 0x4000 + a.toNat * 0x80
  | .vpopce m d a => 50331653 + m.toNat * 0x200000 + d.toNat * 0x4000 + a.toNat * 0x80
  | .viota m d => 50331654 + m.toNat * 0x200000 + d.toNat * 0x4000
  | .vtag d a t => 50331664 + d.toNat * 0x4000 + a.toNat * 0x80 + t.code
  | .vfneg m d a => 1660944384 + m.toNat * 0x200000 + d.toNat * 0x4000 + a.toNat * 0x80
  | .vfabs m d a => 1660944385 + m.toNat * 0x200000 + d.toNat * 0x4000 + a.toNat * 0x80
  | .vfsqrt m d a => 1660944386 + m.toNat * 0x200000 + d.toNat * 0x4000 + a.toNat * 0x80
  | .vfrcp m d a => 1660944387 + m.toNat * 0x200000 + d.toNat * 0x4000 + a.toNat * 0x80
  | .vfrsq m d a => 1660944388 + m.toNat * 0x200000 + d.toNat * 0x4000 + a.toNat * 0x80
  | .vfexp2 m d a => 1660944389 + m.toNat * 0x200000 + d.toNat * 0x4000 + a.toNat * 0x80
  | .vfclass m d a => 1660944390 + m.toNat * 0x200000 + d.toNat * 0x4000 + a.toNat * 0x80
  | .vcvt m d a t p e => 2399141888 + m.toNat * 0x200000 + d.toNat * 0x4000 + a.toNat * 0x80 + t.code * 0x8 + p.toNat * 0x2 + e.toNat
  | .vredsum m d a => 2600468480 + m.toNat * 0x200000 + d.toNat * 0x4000 + a.toNat * 0x80
  | .vredmax m d a => 2600468481 + m.toNat * 0x200000 + d.toNat * 0x4000 + a.toNat * 0x80
  | .vredmin m d a => 2600468482 + m.toNat * 0x200000 + d.toNat * 0x4000 + a.toNat * 0x80
  | .vredmaxn m d a => 2600468483 + m.toNat * 0x200000 + d.toNat * 0x4000 + a.toNat * 0x80
  | .vredminn m d a => 2600468484 + m.toNat * 0x200000 + d.toNat * 0x4000 + a.toNat * 0x80
  | .vredfsum m d a => 2600468485 + m.toNat * 0x200000 + d.toNat * 0x4000 + a.toNat * 0x80
  | .vredfmax m d a => 2600468486 + m.toNat * 0x200000 + d.toNat * 0x4000 + a.toNat * 0x80
  | .vredfmin m d a => 2600468487 + m.toNat * 0x200000 + d.toNat * 0x4000 + a.toNat * 0x80
  | .vpopc m d a => 2600468488 + m.toNat * 0x200000 + d.toNat * 0x4000 + a.toNat * 0x80
  | .vfirst m d a => 2600468489 + m.toNat * 0x200000 + d.toNat * 0x4000 + a.toNat * 0x80
  | .mand m d a b => 721420288 + m.toNat * 0x200000 + d.toNat * 0x4000 + a.toNat * 0x80 + b.toNat
  | .mor m d a b => 721420296 + m.toNat * 0x200000 + d.toNat * 0x4000 + a.toNat * 0x80 + b.toNat
  | .mxor m d a b => 721420304 + m.toNat * 0x200000 + d.toNat * 0x4000 + a.toNat * 0x80 + b.toNat
  | .mandn m d a b => 721420312 + m.toNat * 0x200000 + d.toNat * 0x4000 + a.toNat * 0x80 + b.toNat
  | .mnot m d a => 721420320 + m.toNat * 0x200000 + d.toNat * 0x4000 + a.toNat * 0x80
  | .mset m d => 721420328 + m.toNat * 0x200000 + d.toNat * 0x4000
  | .mclr m d => 721420336 + m.toNat * 0x200000 + d.toNat * 0x4000
  | .mmov m d a => 721420344 + m.toNat * 0x200000 + d.toNat * 0x4000 + a.toNat * 0x80
  | .vsplat m d a => 788529152 + m.toNat * 0x200000 + d.toNat * 0x4000 + a.toNat * 0x80
  | .vmovs m d a => 788529153 + m.toNat * 0x200000 + d.toNat * 0x4000 + a.toNat * 0x80
  | .vins m d a => 788529154 + m.toNat * 0x200000 + d.toNat * 0x4000 + a.toNat * 0x80
  | .vld m v a b t u => 2684354560 + m.toNat * 0x800000 + v.toNat * 0x10000 + a.toNat * 0x400 + b.toNat * 0x10 + t.code * 0x2 + u.toNat
  | .vst m v a b u => 2751463424 + m.toNat * 0x800000 + v.toNat * 0x10000 + a.toNat * 0x400 + b.toNat * 0x10 + u.toNat
  | .vldx m v a b t => 2818572288 + m.toNat * 0x800000 + v.toNat * 0x10000 + a.toNat * 0x400 + b.toNat * 0x8 + t.code
  | .vstx m v a b => 2885681152 + m.toNat * 0x800000 + v.toNat * 0x10000 + a.toNat * 0x400 + b.toNat * 0x8
  | .vldb m v a b t => 2952790016 + m.toNat * 0x800000 + v.toNat * 0x10000 + a.toNat * 0x400 + b.toNat * 0x8 + t.code
  | .vredm m v a b o => 3019898880 + m.toNat * 0x800000 + v.toNat * 0x10000 + a.toNat * 0x400 + b.toNat * 0x8 + o.code
  | .mrow d a b => 3087007744 + d.toNat * 0x4000 + a.toNat * 0x80 + b.toNat
  | .mrows s t a b => 3089104896 + s.toNat * 0x20000 + t.toNat * 0x4000 + a.toNat * 0x80 + b.toNat
  | .mdrain d a e t => 3091202048 + d.toNat * 0x4000 + a.toNat * 0x80 + e.toNat * 0x10 + t.code
  | .mzero a b => 3093299200 + a.toNat * 0x80 + b.toNat
  | .twrow d a b => 3095396352 + d.toNat * 0x4000 + a.toNat * 0x80 + b.toNat
  | .trcol d a b => 3097493504 + d.toNat * 0x4000 + a.toNat * 0x80 + b.toNat
  | .tlds d a => 3099590656 + d.toNat * 0x4000 + a.toNat * 0x80
  | .tldm d a b => 3101687808 + d.toNat * 0x4000 + a.toNat * 0x80 + b.toNat
  | .tset d t b => 3103784960 + d.toNat * 0x4000 + t.code * 0x80 + b.toNat
  | .tcopy d a b => 3105882112 + d.toNat * 0x4000 + a.toNat * 0x80 + b.toNat
  | .sbind d a t n => 3107979264 + d.toNat * 0x4000 + a.toNat * 0x80 + t.code * 0x4 + n.toNat
  | .sfree n => 3110076416 + n.toNat
  | .happend a b => 3112173568 + a.toNat * 0x80 + b.toNat
  | .hloade d a b => 3114270720 + d.toNat * 0x4000 + a.toNat * 0x80 + b.toNat
  | .hloadr d a b => 3116367872 + d.toNat * 0x4000 + a.toNat * 0x80 + b.toNat
  | .hsync a => 3118465024 + a.toNat * 0x80
  | .vapp d a b => 3120562176 + d.toNat * 0x4000 + a.toNat * 0x80 + b.toNat
  | .vpropose d a b => 3122659328 + d.toNat * 0x4000 + a.toNat * 0x80 + b.toNat
  | .vwaitall d a b => 3124756480 + d.toNat * 0x4000 + a.toNat * 0x80 + b.toNat
  | .vwaitany d a b => 3126853632 + d.toNat * 0x4000 + a.toNat * 0x80 + b.toNat
  | .vtopk d a b => 3128950784 + d.toNat * 0x4000 + a.toNat * 0x80 + b.toNat
  | .add d a b => 3221225472 + d.toNat * 0x100000 + a.toNat * 0x4000 + b.toNat * 0x100
  | .sub d a b => 3221225473 + d.toNat * 0x100000 + a.toNat * 0x4000 + b.toNat * 0x100
  | .and d a b => 3221225474 + d.toNat * 0x100000 + a.toNat * 0x4000 + b.toNat * 0x100
  | .or d a b => 3221225475 + d.toNat * 0x100000 + a.toNat * 0x4000 + b.toNat * 0x100
  | .xor d a b => 3221225476 + d.toNat * 0x100000 + a.toNat * 0x4000 + b.toNat * 0x100
  | .andn d a b => 3221225477 + d.toNat * 0x100000 + a.toNat * 0x4000 + b.toNat * 0x100
  | .shl d a b => 3221225478 + d.toNat * 0x100000 + a.toNat * 0x4000 + b.toNat * 0x100
  | .shr d a b => 3221225479 + d.toNat * 0x100000 + a.toNat * 0x4000 + b.toNat * 0x100
  | .sar d a b => 3221225480 + d.toNat * 0x100000 + a.toNat * 0x4000 + b.toNat * 0x100
  | .slt d a b => 3221225481 + d.toNat * 0x100000 + a.toNat * 0x4000 + b.toNat * 0x100
  | .sltn d a b => 3221225482 + d.toNat * 0x100000 + a.toNat * 0x4000 + b.toNat * 0x100
  | .min d a b => 3221225483 + d.toNat * 0x100000 + a.toNat * 0x4000 + b.toNat * 0x100
  | .max d a b => 3221225484 + d.toNat * 0x100000 + a.toNat * 0x4000 + b.toNat * 0x100
  | .minn d a b => 3221225485 + d.toNat * 0x100000 + a.toNat * 0x4000 + b.toNat * 0x100
  | .maxn d a b => 3221225486 + d.toNat * 0x100000 + a.toNat * 0x4000 + b.toNat * 0x100
  | .mul d a b => 3221225488 + d.toNat * 0x100000 + a.toNat * 0x4000 + b.toNat * 0x100
  | .mulh d a b => 3221225489 + d.toNat * 0x100000 + a.toNat * 0x4000 + b.toNat * 0x100
  | .mulhn d a b => 3221225490 + d.toNat * 0x100000 + a.toNat * 0x4000 + b.toNat * 0x100
  | .div d a b => 3221225491 + d.toNat * 0x100000 + a.toNat * 0x4000 + b.toNat * 0x100
  | .divn d a b => 3221225492 + d.toNat * 0x100000 + a.toNat * 0x4000 + b.toNat * 0x100
  | .rem d a b => 3221225493 + d.toNat * 0x100000 + a.toNat * 0x4000 + b.toNat * 0x100
  | .remn d a b => 3221225494 + d.toNat * 0x100000 + a.toNat * 0x4000 + b.toNat * 0x100
  | .clz d a => 3221225496 + d.toNat * 0x100000 + a.toNat * 0x4000
  | .ctz d a => 3221225497 + d.toNat * 0x100000 + a.toNat * 0x4000
  | .popc d a => 3221225498 + d.toNat * 0x100000 + a.toNat * 0x4000
  | .sextb d a => 3221225499 + d.toNat * 0x100000 + a.toNat * 0x4000
  | .sexth d a => 3221225500 + d.toNat * 0x100000 + a.toNat * 0x4000
  | .sextw d a => 3221225501 + d.toNat * 0x100000 + a.toNat * 0x4000
  | .jr a => 3221225504 + a.toNat * 0x4000
  | .callr a => 3221225505 + a.toNat * 0x4000
  | .addi d a i => 3288334336 + d.toNat * 0x100000 + a.toNat * 0x4000 + i.toNat
  | .andi d a i => 3288338432 + d.toNat * 0x100000 + a.toNat * 0x4000 + i.toNat
  | .ori d a i => 3288342528 + d.toNat * 0x100000 + a.toNat * 0x4000 + i.toNat
  | .xori d a i => 3288346624 + d.toNat * 0x100000 + a.toNat * 0x4000 + i.toNat
  | .slti d a i => 3355443200 + d.toNat * 0x100000 + a.toNat * 0x4000 + i.toNat
  | .sltin d a i => 3355447296 + d.toNat * 0x100000 + a.toNat * 0x4000 + i.toNat
  | .shli d a c => 3355451392 + d.toNat * 0x100000 + a.toNat * 0x4000 + c.toNat
  | .shri d a c => 3355455488 + d.toNat * 0x100000 + a.toNat * 0x4000 + c.toNat
  | .sari d a c => 3355455552 + d.toNat * 0x100000 + a.toNat * 0x4000 + c.toNat
  | .lui d i => 3422552064 + d.toNat * 0x100000 + i.toNat
  | .addpc d i => 3489660928 + d.toNat * 0x100000 + i.toNat
  | .beq a b o => 3556769792 + a.toNat * 0x100000 + b.toNat * 0x4000 + o.toNat
  | .bne a b o => 3556773888 + a.toNat * 0x100000 + b.toNat * 0x4000 + o.toNat
  | .blt a b o => 3556777984 + a.toNat * 0x100000 + b.toNat * 0x4000 + o.toNat
  | .bge a b o => 3556782080 + a.toNat * 0x100000 + b.toNat * 0x4000 + o.toNat
  | .bltn a b o => 3623878656 + a.toNat * 0x100000 + b.toNat * 0x4000 + o.toNat
  | .bgen a b o => 3623882752 + a.toNat * 0x100000 + b.toNat * 0x4000 + o.toNat
  | .bbs a b o => 3623886848 + a.toNat * 0x100000 + b.toNat * 0x4000 + o.toNat
  | .bbc a b o => 3623890944 + a.toNat * 0x100000 + b.toNat * 0x4000 + o.toNat
  | .j o => 3690987520 + o.toNat
  | .call o => 3724541952 + o.toNat
  | .ldb d a r i => 3758096384 + d.toNat * 0x100000 + a.toNat * 0x4000 + r.code * 0x400 + i.toNat
  | .ldh d a r i => 3758100480 + d.toNat * 0x100000 + a.toNat * 0x4000 + r.code * 0x400 + i.toNat
  | .ldw d a r i => 3758104576 + d.toNat * 0x100000 + a.toNat * 0x4000 + r.code * 0x400 + i.toNat
  | .ldd d a r i => 3758108672 + d.toNat * 0x100000 + a.toNat * 0x4000 + r.code * 0x400 + i.toNat
  | .ldbn d a r i => 3825205248 + d.toNat * 0x100000 + a.toNat * 0x4000 + r.code * 0x400 + i.toNat
  | .ldhn d a r i => 3825209344 + d.toNat * 0x100000 + a.toNat * 0x4000 + r.code * 0x400 + i.toNat
  | .ldwn d a r i => 3825213440 + d.toNat * 0x100000 + a.toNat * 0x4000 + r.code * 0x400 + i.toNat
  | .stb d a r i => 3892314112 + d.toNat * 0x100000 + a.toNat * 0x4000 + r.code * 0x400 + i.toNat
  | .sth d a r i => 3892318208 + d.toNat * 0x100000 + a.toNat * 0x4000 + r.code * 0x400 + i.toNat
  | .stw d a r i => 3892322304 + d.toNat * 0x100000 + a.toNat * 0x4000 + r.code * 0x400 + i.toNat
  | .std d a r i => 3892326400 + d.toNat * 0x100000 + a.toNat * 0x4000 + r.code * 0x400 + i.toNat
  | .strip c n s o => 3959422976 + c.toNat * 0x100000 + n.toNat * 0x40000 + s.toNat * 0x400 + o.toNat
  | .amoswap d a b o s => 4026531840 + d.toNat * 0x100000 + a.toNat * 0x4000 + b.toNat * 0x100 + o.code * 0x8 + s.code
  | .amoadd d a b o s => 4026531872 + d.toNat * 0x100000 + a.toNat * 0x4000 + b.toNat * 0x100 + o.code * 0x8 + s.code
  | .amoand d a b o s => 4026531904 + d.toNat * 0x100000 + a.toNat * 0x4000 + b.toNat * 0x100 + o.code * 0x8 + s.code
  | .amoor d a b o s => 4026531936 + d.toNat * 0x100000 + a.toNat * 0x4000 + b.toNat * 0x100 + o.code * 0x8 + s.code
  | .amomax d a b o s => 4026531968 + d.toNat * 0x100000 + a.toNat * 0x4000 + b.toNat * 0x100 + o.code * 0x8 + s.code
  | .amomin d a b o s => 4026532000 + d.toNat * 0x100000 + a.toNat * 0x4000 + b.toNat * 0x100 + o.code * 0x8 + s.code
  | .amomaxn d a b o s => 4026532032 + d.toNat * 0x100000 + a.toNat * 0x4000 + b.toNat * 0x100 + o.code * 0x8 + s.code
  | .amocas d a b o s => 4026532064 + d.toNat * 0x100000 + a.toNat * 0x4000 + b.toNat * 0x100 + o.code * 0x8 + s.code
  | .ldo d a o s => 4093640704 + d.toNat * 0x100000 + a.toNat * 0x4000 + o.code * 0x8 + s.code
  | .sto a b o s => 4093640736 + a.toNat * 0x4000 + b.toNat * 0x100 + o.code * 0x8 + s.code
  | .ldow d a o s => 4093640768 + d.toNat * 0x100000 + a.toNat * 0x4000 + o.code * 0x8 + s.code
  | .stow a b o s => 4093640800 + a.toNat * 0x4000 + b.toNat * 0x100 + o.code * 0x8 + s.code
  | .fence o s => 4093640832 + o.code * 0x8 + s.code
  | .vdrain s => 4093640864 + s.code
  | .propose d a b s => 4093640920 + d.toNat * 0x100000 + a.toNat * 0x4000 + b.toNat * 0x100 + s.code
  | .oread d a s => 4093640936 + d.toNat * 0x100000 + a.toNat * 0x4000 + s.code
  | .nop => 4160749568
  | .yieldTurn => 4160749569
  | .exit => 4160749570
  | .trap code => 4160749571 + code.toNat * 0x100
  | .brk => 4160749572
  | .gate index => 4160749573 + index.toNat * 0x100
  | .gret => 4160749574
  | .clk d => 4160749575 + d.toNat * 0x100000
  | .waituntil a => 4160749576 + a.toNat * 0x4000
  | .setvl d a w => 4160749584 + d.toNat * 0x100000 + a.toNat * 0x4000 + w.toNat * 0x100
  | .window a => 4160749585 + a.toNat * 0x4000
  | .valloc a => 4160749586 + a.toNat * 0x4000
  | .vshrink a => 4160749587 + a.toNat * 0x4000
  | .mfc d n => 4160749588 + d.toNat * 0x100000 + n.toNat * 0x100
  | .mtc d n => 4160749589 + d.toNat * 0x100000 + n.toNat * 0x100
  | .app d a b => 4160749600 + d.toNat * 0x100000 + a.toNat * 0x4000 + b.toNat * 0x100
  | .appat d a b => 4160749601 + d.toNat * 0x100000 + a.toNat * 0x4000 + b.toNat * 0x100
  | .sealPage a => 4160749602 + a.toNat * 0x4000
  | .oclear a => 4160749603 + a.toNat * 0x4000
  | .appmark d a => 4160749604 + d.toNat * 0x100000 + a.toNat * 0x4000
  | .abinit a b => 4160749608 + a.toNat * 0x4000 + b.toNat * 0x100
  | .abexpect a b => 4160749609 + a.toNat * 0x4000 + b.toNat * 0x100
  | .abarrive a => 4160749610 + a.toNat * 0x4000
  | .abwait a b => 4160749611 + a.toNat * 0x4000 + b.toNat * 0x100
  | .abtest d a => 4160749612 + d.toNat * 0x100000 + a.toNat * 0x4000
  | .srread d a => 4160749616 + d.toNat * 0x100000 + a.toNat * 0x4000
  | .srtas d a b => 4160749617 + d.toNat * 0x100000 + a.toNat * 0x4000 + b.toNat * 0x100
  | .srfadd d a b => 4160749618 + d.toNat * 0x100000 + a.toNat * 0x4000 + b.toNat * 0x100
  | .srwait d a b => 4160749619 + d.toNat * 0x100000 + a.toNat * 0x4000 + b.toNat * 0x100
  | .cdrain a => 4160749624 + a.toNat * 0x4000
  | .enq a b => 4160749625 + a.toNat * 0x4000 + b.toNat * 0x100
  | .hstat d a => 4160749626 + d.toNat * 0x100000 + a.toNat * 0x4000
  | .eret => 4160749696
  | .mfs d n => 4160749697 + d.toNat * 0x100000 + n.toNat * 0x100
  | .mts d n => 4160749698 + d.toNat * 0x100000 + n.toNat * 0x100
  | .shoot d a b => 4160749699 + d.toNat * 0x100000 + a.toNat * 0x4000 + b.toNat * 0x100
  | .tlbinv a b => 4160749700 + a.toNat * 0x4000 + b.toNat * 0x100
  | .resume d a b => 4160749701 + d.toNat * 0x100000 + a.toNat * 0x4000 + b.toNat * 0x100
  | .halt d a => 4160749702 + d.toNat * 0x100000 + a.toNat * 0x4000
  | .frqpop d a => 4160749703 + d.toNat * 0x100000 + a.toNat * 0x4000
  | .powerGood _ => 0xFFFFFFFF
  | .diesUp _ => 0xFFFFFFFF
  | .ready _ _ => 0xFFFFFFFF
  | .partitionCountSet _ => 0xFFFFFFFF
  | .powerLimitSet _ => 0xFFFFFFFF
  | .attestationRequest _ => 0xFFFFFFFF
  | .timeCorrection _ => 0xFFFFFFFF
  | .correctedSoftError _ => 0xFFFFFFFF
  | .uncorrectableRead _ => 0xFFFFFFFF
  | .laneGroupSleep _ _ => 0xFFFFFFFF
  | .laneGroupWakeBatch _ => 0xFFFFFFFF
  | .untrackedCopyDrop _ _ => 0xFFFFFFFF
  | .gatewayCopyDrop _ _ => 0xFFFFFFFF
  | .remoteAccess _ => 0xFFFFFFFF
  | .widxWrite _ _ _ => 0xFFFFFFFF
  | .queueStateWrite _ _ _ => 0xFFFFFFFF
  | .taskHeadCheck _ _ => 0xFFFFFFFF
  | .dependenceEvaluation _ _ => 0xFFFFFFFF
  | .taskSelection _ => 0xFFFFFFFF
  | .gangPlacement _ => 0xFFFFFFFF
  | .gangStart _ => 0xFFFFFFFF
  | .launchCompletion _ => 0xFFFFFFFF
  | .stallRotation _ => 0xFFFFFFFF
  | .pdDeferralExpiry _ => 0xFFFFFFFF
  | .faultRecordRetry _ => 0xFFFFFFFF
  | .flivenTrap _ _ _ _ => 0xFFFFFFFF
  | .flivenWatchdogReset _ => 0xFFFFFFFF
  | .waitTimeout _ => 0xFFFFFFFF
  | .copyChunkLanding _ _ => 0xFFFFFFFF
  | .copyChunkLost _ _ => 0xFFFFFFFF
  | .channelCreditWait _ => 0xFFFFFFFF
  | .tldmTileWrite _ => 0xFFFFFFFF
  | .reductionMessage _ _ => 0xFFFFFFFF
  | .streamRefill _ _ => 0xFFFFFFFF
  | .streamRecordTake _ => 0xFFFFFFFF
  | .courseMerge _ => 0xFFFFFFFF
  | .courseExpiry _ => 0xFFFFFFFF
  | .appendReservationFill _ _ => 0xFFFFFFFF
  | .shootdownAck _ _ => 0xFFFFFFFF
  | .peerAckTimeout _ _ => 0xFFFFFFFF
  | .syncMirrorUpdate _ => 0xFFFFFFFF
  | .unallocatedEncoding w => w.toNat
  | .waituntilTimeReached _ => 0xFFFFFFFF
  | .startTimeReached _ _ => 0xFFFFFFFF
  | .powerLoss => 0xFFFFFFFF
  | .linkFailedMarkClear _ => 0xFFFFFFFF
  | .peerInvalidation _ _ => 0xFFFFFFFF
  | .lineEviction _ _ => 0xFFFFFFFF

/-- The word of an instruction. -/
def encode (i : Instr) : Word32 := BitVec.ofNat 32 i.bits

end Sys2Proof
end

