-- ==== Sys2Proof/Config.lean ====
section
/-! DEFINITION. The figures of the SF-9 that never change (01_device R6 R8), the fixed intervals of the manual, and the
free values for what the manual does not state. -/

namespace Sys2Proof.Config

/-- Cores of the device, 4 dies of 8 clusters of 8 cores (R6). -/
def numCores : Nat := 256
/-- Strand slots of a core (R6). -/
def slotsPerCore : Nat := 4
/-- Lane groups of a core (R6). -/
def groupsPerCore : Nat := 16
/-- Key of the first Fliven strand in the machine's table of strands: compute strands take 0 to 1,023. -/
def flivenBase : Nat := 1024
/-- The number of the dispatch hardware of die 0 among the units that release (15_order_local R274). -/
def dispatchBase : Nat := 2048
/-- Fliven management cores, four a die (R6). -/
def numFliven : Nat := 16
/-- Entries of a vector queue (02_execution R13). -/
def queueSize : Nat := 64
/-- Credits of a copy channel (08_copies R126). -/
def channelCredits : Nat := 1024
/-- Lines of 128 bytes in the L1 of a core, 128 KiB, and in its instruction cache, 64 KiB (R6). -/
def l1Lines : Nat := 1024
def icacheLines : Nat := 512
/-- Entries of a core TLB and of a die TLB (24_translation R336). -/
def coreTlbSize : Nat := 256
def dieTlbSize : Nat := 16384
/-- Bound streams one course engine holds (06_courses R87). -/
def streamsPerEngine : Nat := 4096
/-- Ten microseconds, the life of an untracked copy and the longest retry interval, in ns (15 R286, 22 R310, 23 R323). -/
def tenMicros : Nat := 10000
/-- The time between two batches of waking lane groups, in ns (23 R329). -/
def wakeNanos : Nat := 20
/-- One millisecond, one step of ageing and the NOW offset that is reported, in ns (23 R325, 27 R362). -/
def oneMilli : Nat := 1000000
/-- The wait for a peer's acknowledgement, in ns (24_translation R338). -/
def peerTimeout : Nat := 10000000
/-- The sliding window of corrected errors, 24 hours in ns, and the count that retires a unit (27_platform R363). -/
def errorWindow : Nat := 86400000000000
def errorLimit : Nat := 16
/-- The one-time signatures of the attestation key (27_platform R361). -/
def attestationLimit : Nat := 1048576
/-- The bytes of device memory, eight stacks of 64 GiB (24_translation R334). -/
def deviceBytes : Nat := 0x8000000000
/-- Where the model keys host bus addresses and the memory of peers in its one table of bytes (log entry 21). -/
def hostBase : Nat := 0x100000000000000
def peerBase : Nat := 0x200000000000000
/-- What a byte of memory that nothing has written reads as (log entry 1). -/
def blankByte : Byte := 0

/-- The n-th free value. Nothing is known of it: it stands for the element that a pop leaves in the register for a
position whose read failed and whose fault was discarded (08 R140; log entry 23). -/
opaque freeValue : Nat → Nat

end Sys2Proof.Config
end

