-- ==== Sys2Proof/Machine/State.lean ====
section
/-! DEFINITION. The state of the SF-9 as plain data: every register, table, queue and buffer the manual names, the
state right after reset, and the reasons a step of the model can stop. -/

namespace Sys2Proof.Machine

/-- The privilege levels (22_privileged R303): F 0, S 1, L 2, K 3. -/
inductive Level where
  | f | s | l | k
  deriving DecidableEq, Repr

def Level.num : Level → Nat
  | .f => 0 | .s => 1 | .l => 2 | .k => 3

def Level.ofNum (n : Nat) : Level :=
  match n % 4 with
  | 0 => .f | 1 => .s | 2 => .l | _ => .k

/-- The page types (05_memory_spaces R66). -/
inductive PageType where
  | normal | append | once | device
  deriving DecidableEq, Repr

/-- Bytes by address in canonical form: addresses strictly rising, no entry equal to the blank byte. -/
abbrev Mem := List Host.Cell

/-- Where one access lands: a byte of device, host or peer memory, or a byte of a core's scratchpad. `gate` is the die
of the gateway slice of a page outside the device (24_translation R334). -/
inductive Loc where
  | gen (pa : Nat) (ty : PageType) (gate : Nat)
  | spad (gang core off : Nat)
  deriving DecidableEq, Repr

/-- A fault to be raised: the cause, its subcode, the faulting address and the INFO field of its record (25 R343). -/
structure Trap where
  cause : Cause
  sub : Nat := 0
  addr : Word := 0
  info : Word := 0
  deriving DecidableEq, Repr

/-- A register slot: 16 slices of 256 B, their sidecar slices, the tag and the high-water mark (03 R33 R35, 25 R349). -/
structure Slot where
  bits : BitVec 32768 := 0
  side : BitVec 4096 := 0
  tag : Tag := .raw
  hwm : Nat := 0
  deriving DecidableEq, Repr

/-- One refilled stream position: its element, or the fault held for it (08 R140). -/
inductive Refill where
  | elem (bits : Nat)
  | held (t : Trap)
  deriving DecidableEq, Repr

/-- A stream slot q0 to q3 (03 R40, 08 R137 R138); `ahead` holds the positions refilled from `pos` up. -/
structure StreamSlot where
  bound : Bool := false
  slot : Nat := 0
  tag : Tag := .raw
  pos : Nat := 0
  record : Word := 0
  base : Word := 0
  strides : List Int := []
  extents : List Nat := []
  ahead : List Refill := []
  deriving DecidableEq, Repr

/-- A queue entry (02 R9 R10, 25 R348). `wb`, `chan` and `credits` are the window base, the copy channel and the credits
taken at decode (log entry 14), `inb` what VLDB has found of the elements it has done (13 R239). The model's own are `upTo`, the
elements it has issued when a pre-emption comes, `src`, the register it overwrites as it reads it, as it was when the entry began
(log entry 20), `only`, the elements of one issue, and `early`, the bytes of elements of a VLD that are read before the others (log
entry 6). -/
structure Entry where
  instr : Instr
  seq : Nat
  vl : Nat
  lg : Nat
  x : Word := 0
  y : Word := 0
  z : Word := 0
  vw : Nat := 0
  wb : Nat := 0
  chan : Nat := 0
  credits : Nat := 0
  upTo : Option Nat := none
  only : Option (List Nat) := none
  early : List (Nat × List Byte) := []
  src : Option Slot := none
  inb : List (Nat × Bool) := []
  deriving DecidableEq, Repr

/-- What stands in a vector queue: an entry, or the place in queue order at which lane groups leave (02 R21) or slots
are released (11 R194). -/
inductive QItem where
  | entry (e : Entry)
  | dropGroups (keep : Nat) (freed : List Nat)
  | dropSlots (lo hi : Nat)
  deriving DecidableEq, Repr

/-- What a plain load that is not yet performed will write: its register, its size and its extension (13 R234). -/
structure LoadDest where
  reg : SReg
  size : Nat
  signed : Bool
  deriving DecidableEq, Repr

/-- What happens at a barrier (08 R131 R134). -/
inductive BarrierEvent where
  | init (n : Nat)
  | expect (b : Nat)
  | arrive
  | land (x : Nat)
  | lose
  deriving DecidableEq, Repr

/-- A scalar access that has left decode and is not yet performed: a store, with `load` a load, with `amo` also an AMO, given by its
function and its operands, with `mark` the read of an APPEND page's word by APPMARK, given by its frame, with `bar` an event at a
barrier; with `rel` it is a release at that scope, and with `own` a release by its own order field, of every access before it; `fences`
counts the release fences that have come after it (15 R275 R277 R279). -/
structure PendAccess where
  loc : Loc
  data : List Byte
  rt : ReqType
  load : Option LoadDest := none
  amo : Option (RemoteAmo × Word × Word) := none
  mark : Option Nat := none
  bar : Option BarrierEvent := none
  rel : Option Scope := none
  own : Bool := false
  fences : Nat := 0
  deriving DecidableEq, Repr

/-- An element of a vector store or of a reduction at memory that has been issued and is not yet performed (02 R11, 15 R275). `strand`
is the identity of its strand, gang × 32 + SIDX; `nibble` says which half of the byte an E2M1 element writes (13 R237); `red` gives the
operation and the tag of a reduction, whose operand is `data` (13 R240). -/
structure VecStore where
  strand : Nat
  gang : Nat
  loc : Loc
  data : List Byte
  rt : ReqType
  nibble : Option Bool := none
  red : Option (RedOp × Tag) := none
  deriving DecidableEq, Repr

/-- A line that a signature marks. The lines of a copy also say which core issued it and at which scope: they reach only the
agents of that instance (15 R285, 17 R301). -/
structure SigLine where
  line : Nat
  unit : Nat := 0
  reach : Scope := .system
  deriving DecidableEq, Repr

/-- A release as its location keeps it: the unit that made it (a core, a Fliven strand's key, or a unit of the dispatch
hardware), its scope, and the lines it covers (15 R280 R285). -/
structure Release where
  unit : Nat
  scope : Scope
  lines : List SigLine
  deriving DecidableEq, Repr

/-- The releases along a release sequence (15 R280). -/
abbrev Sig := List Release

/-- The releases that a barrier's counts and arrivals carry: `now` those of the phase in progress, `done` those of the phases that
have changed (08 R133, 17 R300). -/
structure BarSig where
  now : Sig := []
  done : Sig := []
  deriving DecidableEq, Repr

/-- What a strand is doing (02 R25, 25). -/
inductive Status where
  | absent | placed | ready | stopped | exited
  deriving DecidableEq, Repr

/-- Who a strand is (03 R41, 0x020 to 0x031; 23 R321 R326). -/
structure Ident where
  gid : Nat := 0
  sidx : Nat := 0
  nstr : Nat := 0
  ngang : Nat := 0
  larg : Word := 0
  pid : Nat := 0
  lstart : Nat := 0
  floor : Nat := 1
  mx : Bool := false
  gang : Nat := 0
  launch : Nat := 0
  deriving DecidableEq, Repr

/-- The vector side of a strand: window, grant, registers, masks, stream slots and the interrupted entry (03 R32 to
R44). -/
structure VecState where
  vl : Nat := 0
  vw : Nat := 0
  lg : Nat := 1
  wb : Nat := 0
  valc : Nat := 16
  groups : List Nat := []
  slots : Map Slot := []
  masks : Vector (BitVec 8192) 8 := Vector.replicate 8 0
  streams : Vector StreamSlot 4 := Vector.replicate 4 {}
  vstart : Nat := 0
  vdone : BitVec 8192 := 0
  fppend : Bool := false
  deriving DecidableEq, Repr

/-- The system registers and the trap state of a Fliven strand: `trapped` until its handler writes EPC, `dead` the cause
of the second fault that stopped the core (22 R308 R309). -/
structure FlivenRegs where
  epc : Word := 0
  ecause : Word := 0
  faultVal : Word := 0
  elevel : Nat := 0
  tvec : Word := 0
  spid : Nat := 0
  trapped : Bool := false
  dead : Option Nat := none
  deriving DecidableEq, Repr

/-- The strand's place in the memory order (15 R277 R279): its plain accesses not yet performed, in program order; a release
fence that waits for the next scalar write; the releases the last scalar read met. -/
structure OrderState where
  path : List PendAccess := []
  relFence : Option Scope := none
  readSig : Sig := []
  deriving DecidableEq, Repr

/-- A fault of the word at the PC that was met while older entries or loads were not done: the word and the fault of its record, and
the copy channel whose loss it reports (02 R14, 08 R134). -/
structure KeptFault where
  word : Nat
  trap : Trap
  chan : Option Nat := none
  deriving DecidableEq, Repr

/-- A wait in progress: when it began (11 R180). `laneSince` is when a watch in the lanes began; `mark` is what the wait began on: the generation an
OCLEAR clears, the shoot-down a SHOOT waits for, the gang a HALT stops; `rows` is how many copy rows the core had accepted
when a CDRAIN reached the engine (08 R128), `frame` the page a SEAL waits for and `sealed` how that ended: sealed, or freed (07
R111, 24 R339), `record` the task that an ENQ has read and holds (11 R204), `halted` that the gang a HALT waits for has stopped, `fault` the
fault that is reported once the older entries have ended without one (02 R14); `on_` is the scalar instruction that waits or sleeps: it
was fetched and decoded before, and only its end is still to come. -/
structure Waiting where
  since : Option Nat := none
  laneSince : Option Nat := none
  mark : Option Nat := none
  rows : Option Nat := none
  frame : Option Nat := none
  sealed : Option Bool := none
  record : Option (List Byte) := none
  halted : Bool := false
  fault : Option KeptFault := none
  on_ : Option Instr := none
  deriving DecidableEq, Repr

/-- A compute strand, or the strand of a Fliven core (02 R9, 22 R304). `owed` lists the strands that YIELD lets go first
(11 R197). -/
structure Strand where
  fliven : Bool := false
  status : Status := .absent
  pc : Word := 0
  regs : Vector Word 64 := Vector.replicate 64 0
  level : Level := .k
  pd : Bool := false
  fd : Bool := false
  fcsr : Word := 0
  efc : BitVec 32 := 0
  hspan : Word := 0
  wto : Word := 0
  traph : Word := 0
  glink : Word := 0
  glevel : Level := .k
  seqNext : Nat := 0
  queue : List QItem := []
  v : VecState := {}
  id : Ident := {}
  fl : FlivenRegs := {}
  ord : OrderState := {}
  wait : Waiting := {}
  stopSeq : Nat := 0
  stopped : Option Trap := none
  stopKind : Nat := 0
  owed : List Nat := []
  deriving DecidableEq, Repr

/-- A lane group of a core (02 R18, 23 R329, 27 R363 R365). -/
structure LaneGroup where
  owner : Option Nat := none
  asleep : Bool := false
  freeSince : Nat := 0
  retired : Bool := false
  retireDue : Bool := false
  errors : List Nat := []
  deriving DecidableEq, Repr

/-- A tile register (03 R37). -/
structure Tile where
  bits : BitVec 131072 := 0
  side : BitVec 16384 := 0
  tag : Tag := .raw
  depth : Nat := 128
  written : Bool := false
  deriving DecidableEq, Repr

/-- The kind of an accumulator row (03 R38). -/
inductive AccKind where
  | none | f32 | i32
  deriving DecidableEq, Repr

/-- An accumulator row of 128 elements of 32 bits (03 R38). -/
structure AccRow where
  bits : BitVec 4096 := 0
  kind : AccKind := .none
  deriving DecidableEq, Repr

/-- A line held in an L1 or in a gateway slice: as OWN with its dirty bytes, or untracked with the bytes it was filled
with and the releases that came with them (05 R68, 15 R285, 16 R294). -/
structure CacheLine where
  own : Bool
  dirty : BitVec 128
  data : List Byte
  time : Nat
  sigs : Map Sig := []
  deriving DecidableEq, Repr

/-- A translation buffer entry (24 R336). -/
structure TlbEntry where
  part : Nat
  vpage : Nat
  big : Bool
  leaf : Nat
  gen : Nat
  deriving DecidableEq, Repr

/-- A span of bytes that crosses at most one page border: the location of its first byte, of its last byte, and how many
bytes lie before the border. -/
structure Span where
  first : Loc
  last : Loc
  len : Nat
  head : Nat
  deriving DecidableEq, Repr

/-- One chunk of an accepted copy row (08 R132): elements `lo` to `lo + n − 1` of the row, for one destination. `data` holds
the source bytes of a multicast chunk, which are read once for all destinations (R129); else they are read at landing.
`strand` is the identity of the issuing strand, gang × 32 + SIDX; `order` counts the rows that the engine has accepted, `lost`
says that its source read failed (R134), `paid` that the credit of its row has gone back (R126). -/
structure Chunk where
  gang : Nat
  strand : Nat
  seq : Nat
  chan : Nat
  row : Nat
  scope : Scope
  stag : Tag
  ctag : Tag
  ssize : Nat
  dsize : Nat
  rop : Nat
  src : Span
  dst : Span
  lo : Nat
  n : Nat
  bar : Option (Nat × Nat)
  mcast : Nat
  data : List Byte
  order : Nat := 0
  lost : Bool := false
  paid : Bool := false
  deriving DecidableEq, Repr

/-- A tile write sent by TLDM to a core (09 R149 R154). -/
structure TileWrite where
  gang : Nat
  tile : Nat
  bits : BitVec 131072
  side : BitVec 16384
  tag : Tag
  depth : Nat
  bar : Option Nat
  bytes : Nat
  deriving DecidableEq, Repr

/-- A reduction message to a peer's bank unit, from a strand by its identity and its core (05 R78). -/
structure RedMsg where
  strand : Nat
  src : Nat := 0
  gang : Nat
  off : Nat
  size : Nat
  tag : Tag
  op : RedOp
  value : Nat
  deriving DecidableEq, Repr

/-- A copy channel: credits held by grants and rows, a lost chunk the next CDRAIN reports, and the lines of landed chunks that
no CDRAIN has completed (08 R126 R134, 17 R301). -/
structure Channel where
  held : Nat := 0
  lost : Bool := false
  landed : List SigLine := []
  deriving DecidableEq, Repr

/-- A core (01 R6 R7). `rows` counts the copy rows that it has accepted; `waking` is the moment from which the next batch of its sleeping
groups wakes (23 R329); `lastServed` is the place that issued last (23 R330), `paired` the place that has issued in one cycle with the
place that is next (02 R20), `unitLast` the place that each shared unit took an entry from last, and `unitHeld` the place and the sequence
number of an entry that a unit has begun (02 R11); `icache` holds the lines of the instruction cache by the line of their physical
address (01 R6; log entry 64). -/
structure Core where
  groups : List LaneGroup := List.replicate 16 {}
  waking : Option Nat := none
  mxGang : Option Nat := none
  tiles : Map Tile := []
  acc : Map AccRow := []
  chans : Map Channel := []
  chunks : List Chunk := []
  tileWrites : List TileWrite := []
  redMsgs : List RedMsg := []
  l1 : Map CacheLine := []
  stores : List VecStore := []
  written : List SigLine := []
  barSig : Map BarSig := []
  tlb : List TlbEntry := []
  clk : Nat := 0
  lastServed : Nat := 3
  paired : Option Nat := none
  unitLast : Map Nat := []
  unitHeld : Map (Nat × Nat) := []
  icache : Map CacheLine := []
  rows : Nat := 0
  deriving DecidableEq, Repr

/-- The value of a sync register, and the releases of its latest change (05 R80, 16 R292). -/
structure SyncReg where
  val : Word := 0
  sig : Sig := []
  deriving DecidableEq, Repr

/-- A die's copy of a decided cell, tagged with the generation of the page, with the signature of the winner (07 R117). -/
structure CellCopy where
  gen : Nat
  val : Word
  sig : Sig := []
  deriving DecidableEq, Repr

/-- A die (01 R6): its TLB, the mirrors of the sync registers of the other dies with the changes on the way to them, the
lines of sealed pages of which it holds replicas, its copies of decided cells by slot (physical address / 16), and its gateway
copies. -/
structure Die where
  tlb : List TlbEntry := []
  mirror : Map SyncReg := []
  syncPend : List (Nat × SyncReg) := []
  replicas : List Nat := []
  cells : Map CellCopy := []
  gate : Map CacheLine := []
  deriving DecidableEq, Repr

/-- A task record as the dispatch unit read it (23 R321). -/
structure TaskRec where
  pc : Word := 0
  ngang : Nat := 0
  nstr : Nat := 1
  ncore : Nat := 1
  floor : Nat := 1
  regs : Nat := 1
  spad : Nat := 0
  prio : Nat := 0
  flags : Nat := 0
  msixv : Nat := 0
  start : Nat := 0
  ccnt : Word := 0
  cinc : Word := 0
  larg : Word := 0
  deps : List (Word × Word) := []
  deriving DecidableEq, Repr

/-- What the dispatch unit keeps of one queue: the head record that passed its checks, when it became head, and its
release time once it was found eligible (23 R322 to R325). `byEnq`: the record came by ENQ, since the queue is open to it (23 R320). -/
structure QueueInfo where
  head : Option TaskRec := none
  index : Nat := 0
  since : Nat := 0
  depsMet : Bool := false
  release : Option Nat := none
  byEnq : Bool := false
  open_ : List Nat := []
  sig : Sig := []
  deriving DecidableEq, Repr

/-- What waits until a fault record is posted: the MSI-X message of a completion by its vector (16 R296), or the credit of a
copy row of a core's channel (08 R126). -/
inductive AfterRec where
  | message (vector : Nat)
  | credit (core chan : Nat)
  deriving DecidableEq, Repr

/-- A fault record that waits for a slot, with the core that holds it, whether a fault of the slot's write has been reported (22
R310), and what follows it. -/
structure HeldRec where
  core : Nat
  bytes : List Byte
  logged : Bool := false
  next : Option AfterRec := none
  deriving DecidableEq, Repr

/-- The registers and the dispatch state of a partition (22 R308, 23 R319). `save` lists the save-space units in use by
gang: (first unit, units, gang). -/
structure Part where
  gtbase : Word := 0
  frqbase : Word := 0
  frqsize : Nat := 16
  frqhead : Nat := 0
  frqtail : Nat := 0
  pdlim : Nat := 50000
  stallint : Nat := 100000
  troot : Word := 0
  sralloc : Word := 0
  qopen : Word := 0
  savebase : Word := 0
  savesize : Word := 0
  held : List HeldRec := []
  queues : Map QueueInfo := []
  serving : Option Nat := none
  save : List (Nat × Nat × Nat) := []
  freed : List Nat := []
  deriving DecidableEq, Repr

/-- A launch in progress (23 R325 to R328). `done`: no further gang of it is placed; `endCause` is STALL-CAPACITY when that
ended it; `byEnq`: ENQ submitted its task (11 R205, 16 R296). -/
structure Launch where
  part : Nat
  queue : Nat
  index : Nat
  task : TaskRec
  lstart : Nat
  placed : Nat := 0
  ended : Nat := 0
  lastCluster : Option Nat := none
  done : Bool := false
  endCause : Option Cause := none
  byEnq : Bool := false
  sig : Sig := []
  deriving DecidableEq, Repr

/-- Where a gang stands (02 R25, 23 R328, 22 R316 R317). A halted gang waits until its stopped strands are resumed. -/
inductive GangState where
  | placed | running | preempted | halted | ended
  deriving DecidableEq, Repr

/-- A gang (02 R24 R25). `saved` holds its strands by the place they stopped at while it is not resident, `mat` its matrix
states by CID, `evicted` the scratchpad pages that lie in their backing area (CID, page), `backing` and `ctx` device
addresses in the save space (0: none). `sleptSince` is when one of its strands last exited; `stopReq` a request to stop it
that PD or an answer on the way defers: its time, and whether it comes from HALT (22 R307, 11 R181). -/
structure Gang where
  gid : Nat
  launch : Nat
  part : Nat
  cluster : Nat
  cids : List Nat
  keys : List Nat
  state : GangState
  task : TaskRec
  placedAt : Nat := 0
  stoppedAt : Nat := 0
  sleptSince : Option Nat := none
  stopReq : Option (Nat × Bool) := none
  spads : Map Mem := []
  evicted : List (Nat × Nat) := []
  backing : Nat := 0
  ctx : Nat := 0
  ctxUnits : Nat := 0
  saved : List (Nat × Strand) := []
  mat : Map (Map Tile × Map AccRow) := []
  deriving DecidableEq, Repr

/-- The life-cycle state of an APPEND page (07 R105). -/
inductive AppState where
  | open_ | sealing | sealed_ | releasing
  deriving DecidableEq, Repr

/-- A VAPP reservation that is not filled yet (07 R106). -/
structure Reservation where
  off : Nat
  data : List Byte
  strand : Nat
  seq : Nat
  deriving DecidableEq, Repr

/-- The home state of an APPEND page, with the releases of its SEAL and of appends under a fence (07 R105 R111, 06 R98). -/
structure AppPage where
  state : AppState := .open_
  tail : Nat := 0
  mark : Nat := 0
  engineHeld : Bool := false
  pending : List Reservation := []
  sig : Sig := []
  deriving DecidableEq, Repr

/-- The home state of a ONCE page: its generation, whether a clear is in progress, its decided cells with the releases of
their winners, and the releases of the clear (07 R115 R116 R120). -/
structure OncePage where
  gen : Nat := 0
  clearing : Bool := false
  cells : Map Word := []
  sigs : Map Sig := []
  sig : Sig := []
  deriving DecidableEq, Repr

/-- A shoot-down or clear in progress: the strand that began it, the page, the frames, and the dies and peers that have
not acknowledged (24 R338); `stream` names the stream whose engine releases the page (06 R98). -/
structure Shoot where
  owner : Nat
  part : Nat
  vpage : Nat
  big : Bool
  frames : List Nat
  free : Bool
  clear : Bool
  dies : List Nat
  peers : List Nat
  since : Nat
  stream : Option Nat := none
  deriving DecidableEq, Repr

/-- A record arrival at a course engine (06 R89): the records not taken yet, whether the engine has accepted it, and
whether it refused it (R83). `strand` is the identity of the appender, gang × 32 + SIDX. -/
structure Arrival where
  strand : Nat
  seq : Nat
  records : List Nat
  accepted : Bool := false
  refused : Bool := false
  deriving DecidableEq, Repr

/-- A page of a course: its virtual and physical address, the items written to it and the items gone from it (06 R98). -/
structure CoursePage where
  va : Word
  pa : Nat
  written : Nat
  gone : Nat
  deriving DecidableEq, Repr

/-- A course of a bound stream: its items oldest first, and its pages oldest first (06 R83 R98). -/
structure Course where
  items : List Nat := []
  pages : List CoursePage := []
  deriving DecidableEq, Repr

/-- A bound stream (06 R84 to R98): its configuration, its pool record with the places of its entries and the free pages
as a stack (last on top), HEAD, FIRST and courses, arrivals, the HSYNCs that hold it, a merge that has begun, the merges
of the current microsecond, the pages that are RELEASING (R98), the frames of its pages that FREE has taken (07 R113; log entry 75), and
the signature of its appends. -/
structure Stream where
  part : Nat
  va : Word
  pa : Nat
  engine : Nat
  rsz : Nat
  tag : Tag
  comb : Nat
  scope : Scope
  budget : Nat
  caps : List Nat
  poolPa : Nat
  entryPas : List Nat
  spare : List (Word × Nat)
  mortar : List Word32 := []
  consts : List Word := []
  head : Nat := 0
  first : Nat := 0
  courses : List Course := []
  faulted : Bool := false
  fcause : Nat := 0
  arrivals : List Arrival := []
  holds : List (Nat × Nat) := []
  begun : Option Nat := none
  window : Nat := 0
  merges : Nat := 0
  releasing : List CoursePage := []
  freed : List Nat := []
  sig : Sig := []
  deriving DecidableEq, Repr

/-- The stages of the start (27 R359); `off` is before power-good. -/
inductive Stage where
  | off | safe | dies | ready | failed
  deriving DecidableEq, Repr

/-- One move of one agent. The agenda lists the moves that come next; with none listed, the strand whose turn it is
decodes, or the start goes on. `later` leaves the work of the engines pending (log entries 2 and 3); `cycle` has a strand decode in one cycle with
the strand of higher number that comes before it (02 R20, 23 R330); `issued` says how far
the entry at VCP has come when a pre-emption is next (log entry 20); `issue` has the entry at VCP perform one of its elements
ahead of the others, and `store` performs a waiting vector store of a core (log entry 6); `tlbEvict` and `replicaEvict` take the
oldest entry of a translation buffer and a replica line away (24 R336 R340); `codeFill` has a core's instruction cache keep the line
of an address that its strand may fetch, `codeDrop` has it give a line up (01 R6; log entry 64). -/
inductive Move where
  | decode (key : Nat) (later : Bool)
  | cycle (key : Nat) (later : Bool)
  | lanes (key : Nat) (later : Bool)
  | perform (key n : Nat)
  | issued (key n : Nat)
  | issue (key i : Nat)
  | store (core n : Nat)
  | event (i : Instr) (later : Bool)
  | beginMerge (stream : Nat)
  | tlbEvict (core die : Nat) (isCore : Bool)
  | replicaEvict (die line : Nat)
  | keepCell (die slot : Nat)
  | codeFill (key : Nat) (va : Word)
  | codeDrop (core line : Nat)
  | advance (ns : Nat)
  | clock (core n : Nat)
  deriving DecidableEq, Repr

/-- The whole machine. `gone` lists the retired frames that have left the memory shares (27 R364), `kept` the runs of frames that
Fliven keeps for its own use (R356; log entry 60). `me` is the strand whose turn it is and `others` the rest by key; `agenda`, `later` and
`drawn` (how many free values were taken) are the model's own (log entries 2, 3 and 23), everything else the manual's. -/
structure State where
  key : Nat
  me : Strand
  others : Map Strand
  cores : Map Core
  dies : Map Die
  parts : Map Part
  launches : Map Launch
  gangs : Map Gang
  apps : Map AppPage
  onces : Map OncePage
  shoots : List Shoot
  failedPeers : List Nat
  peerHolds : Map (List Nat)
  streams : Map Stream
  syncs : Map SyncReg
  lineSig : Map Sig
  mem : Mem
  lostLines : List Nat
  retiredFrames : List Nat
  gone : List Nat
  kept : List (Nat × Nat)
  l2Errors : Map (List Nat)
  rowErrors : Map (List Nat)
  stage : Stage
  fwEntry : Word
  now : Nat
  timeOffset : Int
  nparts : Nat
  powerLimit : Nat
  attested : Nat
  reports : List (Nat × Nat)
  reportPending : Option (Nat × Nat)
  msix : List (Nat × Nat)
  mgmtLog : List (Nat × Nat)
  drawn : Nat
  agenda : List Move
  later : Bool
  deriving DecidableEq, Repr

/-- The machine stops because the model was steered to a move that the part cannot make. -/
inductive Fault where
  /-- Raised by `step` when the agenda names a strand that holds no place on the part. Safe: no hardware does it. -/
  | noSuchStrand (key : Nat)
  /-- Raised by `step` when the agenda lists an instruction word as a step of the part: words are decoded from memory. Safe:
  no hardware does it. -/
  | notAStep
  deriving DecidableEq, Repr

/-- An instruction without a meaning. -/
inductive Refusal where
  /-- Raised by an arm of `exec` that has no meaning yet. Safe: the run stops. -/
  | notModelled (mnemonic : String)
  deriving DecidableEq, Repr

/-- Fliven strand k at reset (22 R308: all its registers are zero, so its level is F). -/
def Strand.flivenReset (k : Nat) : Strand :=
  { fliven := true, status := .ready, level := .f, glevel := .k, id := { sidx := k } }

/-- The machine right after reset, before power-good: no task runs, nothing is resident but the sixteen Fliven strands,
memory lists nothing, one partition, power limit 3,000 W (27 R356 R359 R366; log entries 1, 8, 9, 12). -/
def State.reset : State where
  key := Config.flivenBase
  me := Strand.flivenReset 0
  others := (upto (Config.numFliven - 1)).map fun k => (Config.flivenBase + 1 + k, Strand.flivenReset (k + 1))
  cores := []
  dies := []
  parts := []
  launches := []
  gangs := []
  apps := []
  onces := []
  shoots := []
  failedPeers := []
  peerHolds := []
  streams := []
  syncs := []
  lineSig := []
  mem := []
  lostLines := []
  retiredFrames := []
  gone := []
  kept := []
  l2Errors := []
  rowErrors := []
  stage := .off
  fwEntry := 0
  now := 0
  timeOffset := 0
  nparts := 1
  powerLimit := 3000
  attested := 0
  reports := []
  reportPending := none
  msix := []
  mgmtLog := []
  drawn := 0
  agenda := []
  later := false

end Sys2Proof.Machine
end

