-- ==== Sys2Proof/Machine/Mem.lean ====
section
/-! DEFINITION. The table of memory bytes in its one canonical form, the tables of the state by name, and the strands by
key. Byte order is decided here: little-endian (00_scope R2). -/

namespace Sys2Proof.Machine

/-- The byte at an address; an address that is not listed reads as the blank byte (log entry 1). -/
def Mem.byte (m : Mem) (a : Nat) : Byte :=
  match m with
  | [] => Config.blankByte
  | (b, v) :: rest => if b = a then v else Mem.byte rest a

/-- The cells of a run of bytes from an address, blank bytes left out. -/
def cellsOf (a : Nat) : List Byte → Mem
  | [] => []
  | b :: bs => if b = Config.blankByte then cellsOf (a + 1) bs else (a, b) :: cellsOf (a + 1) bs

/-- Writes a run of bytes from an address and keeps the canonical form. -/
def Mem.write (m : Mem) (a : Nat) (bs : List Byte) : Mem :=
  m.filter (fun c => decide (c.1 < a)) ++ cellsOf a bs ++ m.filter (fun c => decide (a + bs.length ≤ c.1))

/-- Reads n bytes from an address. -/
def Mem.read (m : Mem) (a n : Nat) : List Byte :=
  let w := m.filter fun c => decide (a ≤ c.1) && decide (c.1 < a + n)
  (upto n).map fun i => Mem.byte w (a + i)

/-- Reads a long run in pieces of 128 bytes. -/
def Mem.readLong (m : Mem) (a : Nat) : Nat → List Byte
  | 0 => []
  | k + 1 => Mem.readLong m a k ++ Mem.read m (a + 128 * k) 128

/-- The canonical form: addresses strictly rising, no blank byte listed. -/
def Mem.wf : Mem → Bool
  | [] => true
  | [c] => c.2 != Config.blankByte
  | c :: d :: rest => c.2 != Config.blankByte && decide (c.1 < d.1) && Mem.wf (d :: rest)

/-- The number that little-endian bytes hold (R2). -/
def natOfBytes : List Byte → Nat
  | [] => 0
  | b :: bs => b.toNat + 256 * natOfBytes bs

/-- The n little-endian bytes of a number (R2). -/
def bytesOfNat : Nat → Nat → List Byte
  | 0, _ => []
  | n + 1, x => BitVec.ofNat 8 x :: bytesOfNat n (x / 256)

/-- The element of width w at index e of a packed number (02_execution R22). -/
def elemAt (x w e : Nat) : Nat := x / 2 ^ (w * e) % 2 ^ w

/-- A packed number with the element of width w at index e replaced (R22). -/
def setElem (x w e v : Nat) : Nat := x - elemAt x w e * 2 ^ (w * e) + v % 2 ^ w * 2 ^ (w * e)

/-- write_s: a write to s0 is discarded (03 R31, 11 R180). -/
def Strand.wr (t : Strand) (r : SReg) (x : Word) : Strand :=
  if r = 0 then t else { t with regs := t.regs.set r.toNat x (by have := r.isLt; omega) }

/-! Tables of the state. -/

/-- A core, a die, a partition: absent entries stand for the reset contents. -/
def State.core (s : State) (c : Nat) : Core := Map.getD s.cores c {}
def State.setCore (s : State) (c : Nat) (x : Core) : State := { s with cores := Map.set s.cores c x }
def State.modCore (s : State) (c : Nat) (f : Core → Core) : State := s.setCore c (f (s.core c))
def State.die (s : State) (d : Nat) : Die := Map.getD s.dies d {}
def State.modDie (s : State) (d : Nat) (f : Die → Die) : State := { s with dies := Map.set s.dies d (f (s.die d)) }
def State.part (s : State) (p : Nat) : Part := Map.getD s.parts p {}
def State.modPart (s : State) (p : Nat) (f : Part → Part) : State := { s with parts := Map.set s.parts p (f (s.part p)) }
def State.gang? (s : State) (g : Nat) : Option Gang := Map.get? s.gangs g
def State.modGang (s : State) (g : Nat) (f : Gang → Gang) : State :=
  match s.gang? g with
  | none => s
  | some x => { s with gangs := Map.set s.gangs g (f x) }
def State.modLaunch (s : State) (l : Nat) (f : Launch → Launch) : State :=
  match Map.get? s.launches l with
  | none => s
  | some x => { s with launches := Map.set s.launches l (f x) }

/-- The strand at a key: the one whose turn it is, or one of the others. -/
def State.strand? (s : State) (k : Nat) : Option Strand := if k = s.key then some s.me else Map.get? s.others k

/-- Puts a strand at a key. -/
def State.putStrand (s : State) (k : Nat) (t : Strand) : State :=
  if k = s.key then { s with me := t } else { s with others := Map.set s.others k t }

/-- Changes the strand at a key, if there is one. -/
def State.modStrand (s : State) (k : Nat) (f : Strand → Strand) : State :=
  match s.strand? k with
  | none => s
  | some t => s.putStrand k (f t)

/-- Changes the strand whose turn it is. -/
def State.modMe (s : State) (f : Strand → Strand) : State := { s with me := f s.me }

/-- Gives the turn to another strand, if it exists. -/
def State.focus? (s : State) (k : Nat) : Option State :=
  if k = s.key then some s else
  match Map.get? s.others k with
  | none => none
  | some t => some { s with key := k, me := t, others := Map.erase (Map.set s.others s.key s.me) k }

/-- Does something as another strand, and gives the turn back. -/
def State.asStrand (s : State) (k : Nat) (f : State → State) : State :=
  match s.focus? k with
  | none => s
  | some t =>
    let t := f t
    match t.focus? s.key with
    | none => t
    | some u => u

/-- All resident strands by key. -/
def State.strands (s : State) : List (Nat × Strand) := (s.key, s.me) :: s.others

/-! Places of a strand (01_device R6): the key of a compute strand is its core × 4 + slot. -/

def coreOfKey (k : Nat) : Nat := k / Config.slotsPerCore
def slotOfKey (k : Nat) : Nat := k % Config.slotsPerCore
def cidOfCore (c : Nat) : Nat := c % 8
def clusterOfCore (c : Nat) : Nat := c / 8
def dieOfCore (c : Nat) : Nat := c / 64
def isFlivenKey (k : Nat) : Bool := decide (Config.flivenBase ≤ k)
def dieOfKey (k : Nat) : Nat := if isFlivenKey k then (k - Config.flivenBase) / 4 else dieOfCore (coreOfKey k)

/-- The core of the strand whose turn it is. -/
def State.myCore (s : State) : Nat := coreOfKey s.key

/-- The partition of a strand: its PID, or for a Fliven strand its SPID (22_privileged R303 R304). -/
def Strand.part (t : Strand) : Nat := if t.fliven then t.fl.spid else t.id.pid

/-- The partition that holds a device address, a cluster, a course engine (27_platform R356). -/
def State.partOfStack (s : State) (stack : Nat) : Nat := stack * s.nparts / 8
def State.partOfCluster (s : State) (c : Nat) : Nat := c * s.nparts / 32
def stackOf (pa : Nat) : Nat := pa / 2 ^ 36 % 8

end Sys2Proof.Machine
end

