-- ==== Sys2Proof/Machine/Access.lean ====
section
/-! DEFINITION. Addresses and translation: the address forms, the four-level table, the translation buffers and the
checks of one access in the order of 05_memory_spaces R67 (05 R65 to R73, 24 R331 to R337, 27 R364). -/

namespace Sys2Proof.Machine

/-- The kinds of access that R66 and R333 tell apart. `hwRead` and `hwWrite` are the accesses of the dispatch unit, ENQ
and the record queue with the rights of level S, which need a NORMAL page (22 R310, 23 R319 R321). -/
inductive Access where
  | fetch | load | store | amo | vload | vstore
  | appendOp (writes : Bool) | onceOp (writes : Bool) | clearOp
  | copySrc | copyDst | hwRead | hwWrite
  deriving DecidableEq, Repr

/-- Who makes an access: partition, level, device-wide core (none for Fliven cores and dispatch units), die and gang. `unit`
names who releases and acquires: the core, or a Fliven strand's key (15 R274). -/
structure Agent where
  part : Nat
  level : Level
  core : Option Nat
  die : Nat
  gang : Nat
  unit : Option Nat := core
  deriving DecidableEq, Repr

/-- The agent that a strand is. -/
def agentOf (k : Nat) (t : Strand) : Agent :=
  { part := t.part, level := t.level, core := if t.fliven then none else some (coreOfKey k), die := dieOfKey k,
    gang := t.id.gang, unit := some (if t.fliven then k else coreOfKey k) }

/-- The strand whose turn it is, as an agent. -/
def State.agent (s : State) : Agent := agentOf s.key s.me

/-- The hardware of a die acting for a partition with the rights of level S (23 R319). -/
def hwAgent (part die : Nat) : Agent := { part := part, level := .s, core := none, die := die, gang := 0 }

/-- The access needs W = 1 (24 R333). -/
def Access.writes : Access → Bool
  | .store | .amo | .vstore | .copyDst | .hwWrite | .clearOp => true
  | .appendOp w => w
  | .onceOp w => w
  | .fetch | .load | .vload | .copySrc | .hwRead => false

/-- The page types that admit the access (05 R66, 24 R333). -/
def Access.admits (a : Access) (ty : PageType) : Bool :=
  match a, ty with
  | .load, .normal | .load, .append | .load, .device => true
  | .store, .normal | .store, .device => true
  | .amo, .normal => true
  | .vload, .normal | .vload, .append => true
  | .vstore, .normal => true
  | .appendOp _, .append => true
  | .onceOp _, .once | .clearOp, .once => true
  | .copySrc, .normal | .copySrc, .append => true
  | .copyDst, .normal => true
  | .hwRead, .normal | .hwWrite, .normal => true
  | .fetch, .normal => true
  | _, _ => false

/-- The access may name scratchpad (05 R67 step 5, 13 R245 R247). -/
def Access.admitsSpad : Access → Bool
  | .load | .store | .amo | .vload | .vstore | .copySrc | .copyDst => true
  | .fetch | .appendOp _ | .onceOp _ | .clearOp | .hwRead | .hwWrite => false

/-- The access reads or writes the bytes at its own address. The rows of a copy are only translated when they are accepted, and
meet a lost line as they land; an append instruction and an OCLEAR work on home state, and what is appended goes to TAIL (08 R127
R134, 07 R107 to R111 R120, 24 R335, 27 R364). That PROPOSE, VPROPOSE and OREAD of a cell whose slot lies in a lost line raise DATA-LOST,
although a cell is home state too, is the model's choice (log entry 71). -/
def Access.readsOrWrites : Access → Bool
  | .copySrc | .copyDst | .appendOp _ | .clearOp => false
  | .fetch | .load | .store | .amo | .vload | .vstore | .onceOp _ | .hwRead | .hwWrite => true

/-! Leaf entries (24 R331). -/

def leafType (e : Nat) : PageType :=
  match bitsOf e 3 2 with
  | 0 => .normal | 1 => .append | 2 => .once | _ => .device
def leafW (e : Nat) : Bool := bitAt e 4
def leafX (e : Nat) : Bool := bitAt e 5
def leafLib (e : Nat) : Bool := bitAt e 6
def leafLonly (e : Nat) : Bool := bitAt e 7
def leafTgt (e : Nat) : Nat := bitsOf e 9 8
def leafFrame (e : Nat) : Nat := bitsOf e 51 16
def leafPeer (e : Nat) : Nat := bitsOf e 59 52

/-- The physical key of the first byte a leaf maps (24 R334; log entry 21). -/
def leafBase (e : Nat) : Nat :=
  match leafTgt e with
  | 0 => leafFrame e * 0x10000
  | 1 => Config.hostBase + leafFrame e * 0x10000
  | _ => Config.peerBase + leafPeer e * Config.deviceBytes + leafFrame e * 0x10000 % Config.deviceBytes

/-- A stack lies in the memory share of a partition (27 R356). -/
def inShare (nparts part stack : Nat) : Bool := decide (stack * nparts / 8 = part)

/-- The cases of `malformed` in R332. -/
def leafMalformed (nparts part e lv : Nat) : Bool :=
  bitAt e 10 || bitsOf e 15 11 != 0 || bitsOf e 63 60 != 0 || leafTgt e == 3
  || (lv == 1 && bitsOf e 23 16 != 0)
  || (lv == 1 && (leafType e == .append || leafType e == .once))
  || (leafTgt e == 0 && (bitsOf e 51 39 != 0 || !inShare nparts part (leafFrame e / 0x100000)))
  || (leafTgt e != 2 && leafPeer e != 0)

/-- A frame of device memory is in no memory share: it was freed as retired, or Fliven keeps it for its own use (27 R356 R364). -/
def State.outOfShare (s : State) (f : Nat) : Bool :=
  s.gone.contains f || s.kept.any fun r => decide (r.1 ≤ f) && decide (f < r.1 + r.2)

/-- A leaf maps a frame that is in no memory share. -/
def leafOutside (s : State) (e lv : Nat) : Bool :=
  leafTgt e == 0 && !(s.gone.isEmpty && s.kept.isEmpty)
    && (upto (if lv == 1 then 256 else 1)).any fun i => s.outOfShare (leafFrame e + i)

/-- The zero bits of a pointer entry (R331). -/
def pointerMalformed (e : Nat) : Bool := bitsOf e 10 2 != 0 || bitsOf e 63 52 != 0

/-- A line of device memory is marked lost (27 R364). -/
def State.lost (s : State) (pa n : Nat) : Bool :=
  s.lostLines.any fun l => decide (l * 128 < pa + n) && decide (pa < l * 128 + 128)

/-- The walk of R332 from level lv − 1 down: the leaf and whether it maps 16 MiB. That it reads a table wherever TROOT or a pointer puts it,
also outside the partition's share or beyond device memory, is the model's choice (log entry 85). -/
def walkFrom (s : State) (part va : Nat) : Nat → Nat → Except Trap (Nat × Bool)
  | 0, _ => .error { cause := .protection, sub := 1, addr := BitVec.ofNat 64 va }
  | lv + 1, t =>
    let a := t + 8 * bitsOf va (16 + 8 * lv + 7) (16 + 8 * lv)
    let e := natOfBytes (s.mem.read a 8)
    if s.lost a 8 then .error { cause := .dataLost, addr := BitVec.ofNat 64 va }
    else if !bitAt e 0 then .error { cause := .notPresent, addr := BitVec.ofNat 64 va }
    else if !bitAt e 1 then
      if lv = 0 || pointerMalformed e then .error { cause := .protection, sub := 1, addr := BitVec.ofNat 64 va }
      else walkFrom s part va lv (bitsOf e 51 11 * 0x800)
    else if lv ≥ 2 || leafMalformed s.nparts part e lv || leafOutside s e lv then
      .error { cause := .protection, sub := 1, addr := BitVec.ofNat 64 va }
    else .ok (e, lv == 1)

/-- The frame of a virtual address under a leaf, and the byte's physical key. -/
def leafPa (e : Nat) (big : Bool) (va : Nat) : Nat := leafBase e + va % (if big then 0x1000000 else 0x10000)

/-- The generation a frame's home holds (07 R115, 24 R341). -/
def State.genOf (s : State) (pa : Nat) : Nat := (Map.getD s.onces (pa / 0x10000) {}).gen

/-- The home state of a frame of the device or of the host names another type than the leaf (05 R71, 24 R335); of a page of a peer the
device holds no home state of its own (R342). That the walk of a 16 MiB leaf is checked against the accessed frame of its 256 alone, and a
later buffer hit in another frame is not, is the model's choice (log entry 85). -/
def typeClash (s : State) (e : Nat) (big : Bool) (va : Nat) : Bool :=
  let f := leafPa e big va / 0x10000
  leafTgt e != 2 && ((leafType e != .append && (Map.get? s.apps f).isSome) || (leafType e != .once && (Map.get? s.onces f).isSome))

/-- The type at the home of a page of a peer, which may hold another than the leaf says (R342). -/
def remoteType (s : State) (e pa : Nat) : PageType :=
  let f := pa / 0x10000
  if leafTgt e ≠ 2 then leafType e
  else if (Map.get? s.apps f).isSome then .append
  else if (Map.get? s.onces f).isSome then .once
  else leafType e

/-- The walk of a page with the check of its home state: leaf, size and generation (R332 R335 R336). -/
def walk (s : State) (part va : Nat) : Except Trap (Nat × Bool × Nat) :=
  match walkFrom s part va 4 (bitsOf (s.part part).troot.toNat 51 11 * 0x800) with
  | .error t => .error t
  | .ok (e, big) =>
    if typeClash s e big va then .error { cause := .protection, sub := 1, addr := BitVec.ofNat 64 va }
    else .ok (e, big, s.genOf (leafPa e big va))

/-- A buffer entry answers for an address (R336). -/
def TlbEntry.hits (t : TlbEntry) (part va : Nat) : Bool :=
  t.part == part && (if t.big then t.vpage == va / 0x1000000 else t.vpage == va / 0x10000)

/-- The buffers an agent looks in: its core's, then its die's. -/
def tlbLookup (s : State) (ag : Agent) (va : Nat) : Option TlbEntry :=
  match ag.core with
  | some c =>
    match (s.core c).tlb.find? (·.hits ag.part va) with
    | some t => some t
    | none => (s.die ag.die).tlb.find? (·.hits ag.part va)
  | none => (s.die ag.die).tlb.find? (·.hits ag.part va)

/-- The leaf an access uses: from a buffer, or from a walk (R336). -/
def leafFor (s : State) (ag : Agent) (va : Nat) : Except Trap (Nat × Bool × Nat) :=
  match tlbLookup s ag va with
  | some t => .ok (t.leaf, t.big, t.gen)
  | none => walk s ag.part va

/-- Adds an entry to a buffer of a size, dropping the oldest when it is full (log entry 15). -/
def tlbAdd (size : Nat) (t : TlbEntry) (l : List TlbEntry) : List TlbEntry :=
  if l.any fun u => u.part == t.part && u.vpage == t.vpage && u.big == t.big then l else (t :: l).take size

/-- The home state of an APPEND or ONCE frame that a walk returns for the first time (R335); a frame that has one of either type keeps
it. -/
def homeState (s : State) (e f : Nat) : State :=
  if (Map.get? s.apps f).isSome || (Map.get? s.onces f).isSome then s else
  match leafType e with
  | .append => { s with apps := Map.set s.apps f {} }
  | .once => { s with onces := Map.set s.onces f {} }
  | .normal | .device => s

/-- The walk that an access needs when no buffer holds the page: it creates the home state of the frame and fills the buffers of
the core and of the die; not while the page is cleared, so that no entry keeps the old generation (R335 R336 R341). -/
def touch (s : State) (ag : Agent) (a : Word) : State :=
  let va := a.toNat
  if bitsOf va 63 48 != 0 || (tlbLookup s ag va).isSome then s else
  match walk s ag.part va with
  | .error _ => s
  | .ok (e, big, gen) =>
    let f := leafPa e big va / 0x10000
    let s := homeState s e f
    if (Map.getD s.onces f {}).clearing then s else
    let t : TlbEntry := { part := ag.part, vpage := if big then va / 0x1000000 else va / 0x10000, big := big,
                          leaf := e, gen := gen }
    let s := match ag.core with
      | some c => s.modCore c fun x => { x with tlb := tlbAdd Config.coreTlbSize t x.tlb }
      | none => s
    s.modDie ag.die fun x => { x with tlb := tlbAdd Config.dieTlbSize t x.tlb }

/-- Where an access lands, with the generation of the translation it used and the leaf (0 for scratchpad). -/
structure Place where
  loc : Loc
  gen : Nat := 0
  leaf : Nat := 0
  deriving DecidableEq, Repr

/-- The form of an address fails (05 R65 R72, step 1 of R67). -/
def formTrap (a : Word) : Option Trap :=
  if a.getLsbD 63 then
    if bitsOf a.toNat 62 24 != 0 || bitAt a.toNat 20 then some { cause := .scratchpadRange, addr := a } else none
  else if bitsOf a.toNat 62 48 != 0 then some { cause := .protection, addr := a }
  else none

/-- The core a scratchpad address names is one of the gang's, and its page is below the gang's count (05 R73). That a core whose strands of
the gang have all exited stays one of them until the gang ends is the model's choice (log entry 84). -/
def spadInGang (s : State) (gang : Nat) (cid off : Nat) : Bool :=
  match s.gang? gang with
  | none => false
  | some g => g.cids.contains cid && decide (off / 0x4000 < g.task.spad)

/-- The scratchpad byte an address names for an agent (05 R72). -/
def spadLoc (s : State) (ag : Agent) (a : Word) : Except Trap Loc :=
  let cid := bitsOf a.toNat 23 21
  let off := bitsOf a.toNat 19 0
  match ag.core with
  | none => .error { cause := .scratchpadRange, addr := a }
  | some c =>
    if spadInGang s ag.gang cid off then .ok (.spad ag.gang (clusterOfCore c * 8 + cid) off)
    else .error { cause := .scratchpadRange, addr := a }

/-- The backing area of a gang's page, in device memory (05 R74). -/
def backingAddr (g : Gang) (cid page : Nat) : Nat :=
  g.backing + (g.cids.idxOf cid * g.task.spad + page) * 0x4000

/-- A place in scratchpad whose page lies in its backing area, a line of which is lost: the page cannot be refilled (05 R74, 27 R364;
log entry 63). -/
def lostPage (s : State) (l : Loc) : Bool :=
  match l with
  | .gen _ _ _ => false
  | .spad gang core off =>
    if s.lostLines.isEmpty then false else
    match s.gang? gang with
    | none => false
    | some g => g.evicted.contains (cidOfCore core, off / 0x4000) && s.lost (backingAddr g (cidOfCore core) (off / 0x4000)) 0x4000

/-- The scratchpad byte of an access that reads or writes it (05 R72 R74). -/
def spadPlace (s : State) (ag : Agent) (a : Word) : Except Trap Loc :=
  match spadLoc s ag a with
  | .error t => .error t
  | .ok l => if lostPage s l then .error { cause := .dataLost, addr := a } else .ok l

/-- The faults of the page type, step 6 of R67: the filled mark (07 R109) and the engine-held flag (06 R98). That a frame which has no home
state any more, met by a translation that outlived its page, is read without a mark is the model's choice (log entry 24). -/
def pageTrap (s : State) (acc : Access) (pa n : Nat) : Option Cause :=
  match Map.get? s.apps (pa / 0x10000) with
  | none => none
  | some p =>
    match acc with
    | .load | .vload | .copySrc => if p.mark < pa % 0x10000 + n then some .appendBeyond else none
    | .appendOp w => if w && p.engineHeld then some .protection else none
    | _ => none

/-- The page is being freed (07 R113). -/
def releasing (s : State) (pa : Nat) : Bool :=
  match Map.get? s.apps (pa / 0x10000) with
  | none => false
  | some p => p.state == .releasing

/-- The checks of one access of n bytes at a, which must be a multiple of `align`, in the order of R67. -/
def check (s : State) (ag : Agent) (acc : Access) (a : Word) (n align : Nat) : Except Trap Place :=
  match formTrap a with
  | some t => .error t
  | none =>
    if a.toNat % align ≠ 0 then .error { cause := .misalign, addr := a }
    else if a.getLsbD 63 then
      match spadLoc s ag a with
      | .error t => .error t
      | .ok l =>
        if !acc.admitsSpad then .error { cause := .pageType, addr := a }
        else if acc.readsOrWrites && lostPage s l then .error { cause := .dataLost, addr := a }
        else .ok { loc := l }
    else
      match leafFor s ag a.toNat with
      | .error t => .error { t with addr := a }
      | .ok (e, big, gen) =>
        let pa := leafPa e big a.toNat
        if releasing s pa then .error { cause := .notPresent, addr := a }
        else if (acc == .fetch && (!leafX e || leafType e != .normal)) || (acc.writes && !leafW e)
                || (leafLonly e && ag.level == .k) then .error { cause := .protection, addr := a }
        else if !acc.admits (leafType e) || !acc.admits (remoteType s e pa) then .error { cause := .pageType, addr := a }
        else match pageTrap s acc pa n with
          | some c => .error { cause := c, addr := a }
          | none =>
            if acc.readsOrWrites && s.lost pa n then .error { cause := .dataLost, addr := a }
            else .ok { loc := .gen pa (leafType e) (bitsOf a.toNat 17 16), gen := gen, leaf := e }

/-- The frame of a physical key. -/
def frameOf (pa : Nat) : Nat := pa / 0x10000

/-- The home state of an APPEND page. -/
def State.app (s : State) (f : Nat) : AppPage := Map.getD s.apps f {}

/-- The number APPMARK gives a state (07 R110). -/
def AppState.code : AppState → Nat
  | .open_ => 0 | .sealing => 1 | .sealed_ => 2 | .releasing => 3

/-- The word that APPMARK reads (07 R110). -/
def AppPage.word (p : AppPage) : Word := BitVec.ofNat 64 (p.mark + p.tail * 2 ^ 32 + p.state.code * 2 ^ 62)

/-- The physical key of a generic place; 0 for scratchpad. -/
def Loc.pa : Loc → Nat
  | .gen pa _ _ => pa
  | .spad _ _ _ => 0

/-- The place some bytes further on, within one page. -/
def Loc.plus : Loc → Nat → Loc
  | .gen pa ty g, d => .gen (pa + d) ty g
  | .spad g c o, d => .spad g c (o + d)

/-- Byte i of a span. -/
def Span.at (p : Span) (i : Nat) : Loc := if i < p.head then p.first.plus i else
  match p.last with
  | .gen pa ty g => .gen (pa - (p.len - 1 - i)) ty g
  | .spad g c o => .spad g c (o - (p.len - 1 - i))

end Sys2Proof.Machine
end

