-- ==== Sys2Proof/Machine/Cache.lean ====
section
/-! DEFINITION. How accesses are performed: the request types and the home (05 R68 to R71), L1 and gateway copies,
scratchpad bytes and their backing areas (05 R74), releases, acquires and the signatures they carry (15 R279 R285,
16 R291 to R295). `State.mem` is the memory as the homes order it, with the dirty
bytes of OWN lines already in it (log entry 4). -/

namespace Sys2Proof.Machine

def lineOf (pa : Nat) : Nat := pa / 128

/-- The page lies outside the device and is served through a gateway (05 R71). -/
def isRemote (pa : Nat) : Bool := decide (Config.hostBase ≤ pa)

/-- The request type in force: DEVICE pages are UC (R70), a remote page serves OWN as WT (R71), APPEND pages are read at
their home or a sealed replica, whose bytes are the same (07 R109 R112), and a Fliven core keeps no L1 copies. -/
def effective (ag : Agent) (rt : ReqType) (pa : Nat) (ty : PageType) : ReqType :=
  if ag.core.isNone || ty != .normal then .uc
  else match rt with
    | .own => if isRemote pa then .wt else .own
    | .wt => .wt
    | .si => .si
    | .uc => .uc

/-- The home recalls an OWN line from every other core: its dirty bytes, and with `take` the line itself (R69). -/
def recallLine (s : State) (line : Nat) (but : Option Nat) (take : Bool) : State :=
  { s with cores := s.cores.map fun p =>
      if some p.1 = but then p else
      match Map.get? p.2.l1 line with
      | none => p
      | some l => if l.own then
          (p.1, { p.2 with l1 := if take then Map.erase p.2.l1 line else Map.set p.2.l1 line { l with dirty := 0 } })
        else p }

/-- Set union that keeps the first list's order. -/
def unionList {α : Type} [BEq α] (a b : List α) : List α := b.foldl (fun acc x => if acc.contains x then acc else acc ++ [x]) a

/-- The location key of a signature: a byte of memory or of scratchpad (log entry 7). -/
def sigKey : Loc → Nat
  | .gen pa _ _ => pa
  | .spad g c o => 2 ^ 60 + (g * 0x800000 + cidOfCore c * 0x100000 + o)

/-- The entries of a table of signatures at n bytes from a key. -/
def sigsAt (m : Map Sig) (k n : Nat) : Map Sig := m.filter fun p => decide (k ≤ p.1) && decide (p.1 < k + n)

/-- The releases that n bytes carry (15 R280 R285). -/
def sigIn (m : Map Sig) (k n : Nat) : Sig := (sigsAt m k n).foldl (fun l p => unionList l p.2) []

/-- The releases kept at the home of n bytes at a place. -/
def sigOf (s : State) (l : Loc) (n : Nat) : Sig := sigIn s.lineSig (sigKey l) n

/-- A line copy as its home, or the gateway copy of an agent's die, gives it (16 R294). -/
def fetchLine (s : State) (pa gate : Nat) : State × CacheLine :=
  let line := lineOf pa
  let fresh : CacheLine := { own := false, dirty := 0, data := s.mem.read (line * 128) 128, time := s.now,
                             sigs := sigsAt s.lineSig (line * 128) 128 }
  if isRemote pa then
    match Map.get? (s.die gate).gate line with
    | some l => (s, l)
    | none => (s.modDie gate fun x => { x with gate := Map.set x.gate line fresh }, fresh)
  else (s, fresh)

/-- A read performed at the home leaves no older untracked copy of the line on its path, so that no later read of the
strand goes back in the location's coherence order (15 R275 R282, log entry 4). -/
def dropCopies (s : State) (line : Nat) (core : Option Nat) (gate : Nat) : State :=
  let s := match core with
    | none => s
    | some c => match Map.get? (s.core c).l1 line with
      | none => s
      | some l => if l.own then s else s.modCore c fun x => { x with l1 := Map.erase x.l1 line }
  if ((s.die gate).gate.any fun p => p.1 == line) then
    s.modDie gate fun x => { x with gate := Map.erase x.gate line } else s

/-- A load of a sealed page that misses its replica is served by the home, and the line is refilled (24 R340). -/
def refillReplica (s : State) (ag : Agent) (pa : Nat) (ty : PageType) : State :=
  if ty == .append && (match Map.get? s.apps (pa / 0x10000) with
      | some p => p.state == .sealed_
      | none => false) && !isRemote pa && stackOf pa / 2 != ag.die && !(s.die ag.die).replicas.contains (lineOf pa) then
    s.modDie ag.die fun x => { x with replicas := x.replicas ++ [lineOf pa] }
  else s

/-- The line of an L1 that was filled or written longest ago. -/
def oldestLine : Map CacheLine → Option (Nat × Nat)
  | [] => none
  | (k, l) :: rest =>
    match oldestLine rest with
    | none => some (k, l.time)
    | some b => if l.time ≤ b.2 then some (k, l.time) else some b

/-- A line enters an L1; where the L1 is full the line that was filled or written longest ago leaves (01 R6; log entry 70). -/
def l1Put (line : Nat) (l : CacheLine) (m : Map CacheLine) : Map CacheLine :=
  if (Map.get? m line).isSome || decide (m.length < Config.l1Lines) then Map.set m line l
  else match oldestLine m with
    | none => Map.set m line l
    | some b => Map.set (Map.erase m b.1) line l

/-- A read of n bytes within one line. -/
def readGen (s : State) (ag : Agent) (rt : ReqType) (pa : Nat) (ty : PageType) (gate n : Nat) : State × List Byte :=
  match effective ag rt pa ty, ag.core with
  | .uc, c => (refillReplica (dropCopies (recallLine s (lineOf pa) c false) (lineOf pa) c gate) ag pa ty, s.mem.read pa n)
  | _, none => (s, s.mem.read pa n)
  | r, some c =>
    let line := lineOf pa
    match Map.get? (s.core c).l1 line with
    | some l => if l.own then (s, s.mem.read pa n) else (s, (l.data.drop (pa % 128)).take n)
    | none =>
      let s := recallLine s line (some c) (r == .own)
      let (s, d) := fetchLine s pa gate
      let l : CacheLine := if r == .own then { own := true, dirty := 0, data := [], time := s.now } else { d with time := s.now }
      (s.modCore c fun x => { x with l1 := l1Put line l x.l1 }, (d.data.drop (pa % 128)).take n)

/-- The releases that come with the value a read of n bytes returns: those its untracked copy was filled with, else those at
the home (15 R280 R285). -/
def servedSig (s : State) (ag : Agent) (rt : ReqType) (l : Loc) (n : Nat) : Sig :=
  match l with
  | .spad _ _ _ => sigOf s l n
  | .gen pa ty gate =>
    match effective ag rt pa ty, ag.core with
    | .uc, _ | _, none => sigOf s l n
    | _, some c =>
      match Map.get? (s.core c).l1 (lineOf pa) with
      | some x => if x.own then sigOf s l n else sigIn x.sigs pa n
      | none => match (if isRemote pa then Map.get? (s.die gate).gate (lineOf pa) else none) with
        | some x => sigIn x.sigs pa n
        | none => sigOf s l n

/-- The bytes of a line copy with a run replaced. -/
def patch (d : List Byte) (off : Nat) (bs : List Byte) : List Byte := d.take off ++ bs ++ d.drop (off + bs.length)

/-- The mask of n bytes from an offset. -/
def byteMask (off n : Nat) : BitVec 128 := BitVec.ofNat 128 ((2 ^ n - 1) * 2 ^ off)

/-- A plain write ends the release sequence of each byte it writes (15 R280 R285). -/
def clearSig (s : State) (key n : Nat) : State :=
  if s.lineSig.any fun p => decide (key ≤ p.1) && decide (p.1 < key + n) then
    { s with lineSig := s.lineSig.filter fun p => decide (p.1 < key) || decide (key + n ≤ p.1) }
  else s

/-- Adds a line to the signature of a unit (15 R285). -/
def markWritten (s : State) (unit : Option Nat) (line : Nat) : State :=
  match unit with
  | none => s
  | some c => if (s.core c).written.contains { line := line } then s
    else s.modCore c fun x => { x with written := { line := line } :: x.written }

/-- The signatures of a copy without those of n bytes. -/
def CacheLine.dropSigs (l : CacheLine) (pa n : Nat) : CacheLine :=
  { l with sigs := l.sigs.filter fun p => decide (p.1 < pa) || decide (pa + n ≤ p.1) }

/-- Puts a line into the L1 of a core. -/
def setLine (s : State) (c line : Nat) (l : CacheLine) : State :=
  s.modCore c fun x => { x with l1 := l1Put line l x.l1 }

/-- A write of bytes within one line. -/
def writeGen (s : State) (ag : Agent) (rt : ReqType) (pa : Nat) (ty : PageType) (gate : Nat) (bs : List Byte) : State :=
  let line := lineOf pa
  let off := pa % 128
  let s := recallLine s line ag.core true
  let s := clearSig s pa bs.length
  let s := { s with mem := s.mem.write pa bs }
  let s := if isRemote pa then
      match Map.get? (s.die gate).gate line with
      | none => s
      | some l => s.modDie gate fun x => { x with gate := Map.set x.gate line { l.dropSigs pa bs.length with data := patch l.data off bs } }
    else s
  let s := markWritten s ag.unit line
  match ag.core with
  | none => s
  | some c =>
    match effective ag rt pa ty, Map.get? (s.core c).l1 line with
    | .own, some l =>
      setLine s c line { own := true, dirty := (if l.own then l.dirty else 0) ||| byteMask off bs.length, data := [], time := s.now }
    | .own, none =>
      setLine s c line { own := true, dirty := byteMask off bs.length, data := [], time := s.now }
    | _, some l =>
      setLine s c line (if l.own then { l with dirty := l.dirty &&& ~~~(byteMask off bs.length) }
        else { l.dropSigs pa bs.length with data := patch l.data off bs, time := s.now })
    | _, none => s

/-- The scratchpad bytes of a gang on a core. -/
def spadMem (s : State) (gang core : Nat) : Mem :=
  match s.gang? gang with
  | none => []
  | some g => Map.getD g.spads (cidOfCore core) []

/-- A page that lies in its backing area is refilled before it is accessed (05 R74), unless a line of it is lost there: it is not read
again (27 R364). -/
def refillPage (s : State) (gang core off : Nat) : State :=
  if lostPage s (.spad gang core off) then s else
  match s.gang? gang with
  | none => s
  | some g =>
    let cid := cidOfCore core
    let page := off / 0x4000
    if g.evicted.contains (cid, page) then
      s.modGang gang fun g => { g with
        evicted := g.evicted.filter (· != (cid, page))
        spads := Map.set g.spads cid
          (Mem.write (Map.getD g.spads cid []) (page * 0x4000) (s.mem.readLong (backingAddr g cid page) 128)) }
    else s

/-- Reads n bytes at a place, by an agent, with a request type (05 R68 R74). -/
def readAt (s : State) (ag : Agent) (rt : ReqType) (l : Loc) (n : Nat) : State × List Byte :=
  match l with
  | .gen pa ty gate => readGen s ag rt pa ty gate n
  | .spad g c o =>
    let s := refillPage s g c o
    (s, (spadMem s g c).read o n)

/-- Writes bytes at a place; none in a scratchpad page that cannot be refilled (27 R364; log entry 63). -/
def writeAt (s : State) (ag : Agent) (rt : ReqType) (l : Loc) (bs : List Byte) : State :=
  match l with
  | .gen pa ty gate => writeGen s ag rt pa ty gate bs
  | .spad g c o =>
    if lostPage s l then s else
    let s := refillPage s g c o
    let s := clearSig s (sigKey l) bs.length
    s.modGang g fun x => { x with spads := Map.set x.spads (cidOfCore c) (Mem.write (Map.getD x.spads (cidOfCore c) []) o bs) }

/-- Reads a run of 8k bytes in pieces of 8 (records of the copy engine, the dispatch unit and ENQ). -/
def readPieces (ag : Agent) (rt : ReqType) (l : Loc) : Nat → State → State × List Byte
  | 0, s => (s, [])
  | k + 1, s =>
    let (s, a) := readPieces ag rt l k s
    let (s, b) := readAt s ag rt (l.plus (8 * k)) 8
    (s, a ++ b)

/-- Writes a run of bytes in pieces of 8. -/
def writePieces (ag : Agent) (rt : ReqType) (l : Loc) (bs : List Byte) : Nat → State → State
  | 0, s => s
  | k + 1, s => writeAt (writePieces ag rt l bs k s) ag rt (l.plus (8 * k)) ((bs.drop (8 * k)).take 8)

/-! Releases and acquires (15 R279 to R285, 16 R290 to R295). -/

/-- A scope reaches other cores. -/
def scopeWide : Scope → Bool
  | .core => false
  | .cluster | .die | .device | .system => true

/-- The cluster and the die of a unit: a core, a Fliven strand's key, or the dispatch hardware of a die (15 R274). A unit that is
no compute core is alone in its cluster. -/
def unitCluster (u : Nat) : Nat := if u < Config.numCores then clusterOfCore u else u
def unitDie (u : Nat) : Nat :=
  if u < Config.numCores then dieOfCore u
  else if u < Config.dispatchBase then (u - Config.flivenBase) / 4 else u - Config.dispatchBase

/-- The instance of a scope that belongs to unit x includes unit y (R274); every unit of the model is on the device. -/
def scopeIncludes (sc : Scope) (x y : Nat) : Bool :=
  match sc with
  | .core => x == y
  | .cluster => unitCluster x == unitCluster y
  | .die => unitDie x == unitDie y
  | .device | .system => true

/-- A release synchronises with an acquire of unit u at a scope: each one's instance includes the other (R280 R288). -/
def Release.pairs (r : Release) (u : Nat) (sc : Scope) : Bool := scopeIncludes r.scope r.unit u && scopeIncludes sc u r.unit

/-- The lines that unit u receives from releases; those of a copy only within the instance of its scope (17 R301). -/
def linesFor (u : Nat) (sig : Sig) : List SigLine :=
  sig.foldl (fun l r => unionList l (r.lines.filter fun x => scopeIncludes x.reach x.unit u)) []

/-- The invalidation of an acquire: the untracked copies of the lines leave the core's L1 and its instruction cache, whose lines are
untracked copies too (16 R290; log entry 64), and the lines join the unit's own signature, so that its later releases pass them on (R281;
log entry 7); at SYSTEM scope every untracked line and every gateway copy of the die leaves (15 R285, 16 R295). -/
def receive (s : State) (ag : Agent) (sc : Scope) (u : Nat) (lines : List SigLine) : State :=
  let keep := fun (p : Nat × CacheLine) => p.2.own || (sc != .system && !(lines.any fun y => y.line == p.1))
  let s := s.modCore u fun x => { x with
    l1 := x.l1.filter keep
    icache := x.icache.filter keep
    written := unionList x.written lines }
  if sc == .system then s.modDie ag.die fun x => { x with gate := [] } else s

/-- An acquire by an agent at a scope that met some releases (15 R279 R285). -/
def acquire (s : State) (ag : Agent) (sc : Scope) (sig : Sig) : State :=
  match ag.unit with
  | none => s
  | some u => if !scopeWide sc then s else receive s ag sc u (linesFor u (sig.filter (·.pairs u sc)))

/-- The acquire of a barrier's changed phase: only the release's scope must include the acquirer (17 R300). -/
def acquirePhase (s : State) (ag : Agent) (sig : Sig) : State :=
  match ag.unit with
  | none => s
  | some u => receive s ag .cluster u (linesFor u (sig.filter fun r => scopeIncludes r.scope r.unit u))

/-- The copy of a decided cell that answers an agent: its die's, when the translation has the generation of its tag (07
R117). -/
def localCell (s : State) (ag : Agent) (p : Place) : Option CellCopy :=
  match Map.get? (s.die ag.die).cells (p.loc.pa / 16) with
  | none => none
  | some c => if c.gen = p.gen then some c else none

/-- What a release by an agent at a scope carries: nothing at CORE scope (15 R285 R288). -/
def releaseSig (s : State) (ag : Agent) (sc : Scope) : Sig :=
  match ag.unit with
  | none => []
  | some u => if scopeWide sc then [{ unit := u, scope := sc, lines := (s.core u).written }] else []

/-- The signatures of n bytes at a key replaced. -/
def putSigs (m : Map Sig) (k n : Nat) (sig : Sig) : Map Sig :=
  let rest := m.filter fun p => decide (p.1 < k) || decide (k + n ≤ p.1)
  if sig.isEmpty then rest else (upto n).foldl (fun m i => Map.set m (k + i) sig) rest

/-- The untracked copies on an agent's own path, in its L1 and at the gateway that serves a page from outside, show the releases of n
bytes that it has just changed at their home (05 R71, 15 R280 R285). -/
def showSigs (s : State) (ag : Agent) (l : Loc) (n : Nat) (sig : Sig) : State :=
  match l with
  | .spad _ _ _ => s
  | .gen pa _ gate =>
    let line := lineOf pa
    let s := match (if isRemote pa then Map.get? (s.die gate).gate line else none) with
      | some x => s.modDie gate fun y => { y with gate := Map.set y.gate line { x with sigs := putSigs x.sigs pa n sig } }
      | none => s
    match ag.core with
    | none => s
    | some c =>
      match Map.get? (s.core c).l1 line with
      | some x => if x.own then s else setLine s c line { x with sigs := putSigs x.sigs pa n sig }
      | none => s

/-- Keeps the releases of a write of n bytes with their location; `join` adds them to those of the release sequence, as a
read-modify-write does (15 R285). -/
def keepSig (s : State) (ag : Agent) (l : Loc) (n : Nat) (sig : Sig) (join : Bool) : State :=
  let new := if join then unionList (sigOf s l n) sig else sig
  showSigs { s with lineSig := putSigs s.lineSig (sigKey l) n new } ag l n new

/-- One atomic read-modify-write of n bytes at the home or the banks: the old value. The release sequence of the location goes
on, with the releases `sig` of its own (15 R280 R285). -/
def rmwAt (s : State) (ag : Agent) (rt : ReqType) (l : Loc) (n : Nat) (sig : Sig) (f : Nat → Nat) : State × Nat :=
  let kept := unionList (sigOf s l n) sig
  let (s, bs) := readAt s ag .uc l n
  let old := natOfBytes bs
  let s := writeAt s ag rt l (bytesOfNat n (f old))
  (if kept.isEmpty then s else keepSig s ag l n kept false, old)

/-- One atomic read-modify-write that counts as a plain write: it ends the release sequence of its bytes, as a reduction does (15
R280 R285). -/
def updateAt (s : State) (ag : Agent) (rt : ReqType) (l : Loc) (n : Nat) (f : Nat → Nat) : State :=
  let (s, bs) := readAt s ag .uc l n
  writeAt s ag rt l (bytesOfNat n (f (natOfBytes bs)))

/-- The register value of n loaded bytes (13 R234). -/
def loadWord (n : Nat) (signed : Bool) (x : Nat) : Word := if signed then BitVec.ofInt 64 (sx (8 * n) x) else BitVec.ofNat 64 x

/-- The function of an AMO (13 R241). -/
def amoApply (f : RemoteAmo) (x y old : Word) : Word :=
  match f with
  | .swap => x
  | .add => old + x
  | .and => old &&& x
  | .or => old ||| x
  | .max => if old.slt x then x else old
  | .min => if x.slt old then x else old
  | .maxn => if old.ult x then x else old
  | .minn => if x.ult old then x else old
  | .cas => if old = x then y else old

end Sys2Proof.Machine
end

