-- ==== Sys2Proof/Machine/Barrier.lean ====
section
/-! DEFINITION. Arrival barriers in scratchpad: their 16 bytes, the events of 08_copies R131 and the signatures their
counts and arrivals carry (R133, 17_order_engines R300). -/

namespace Sys2Proof.Machine

/-- A barrier, as its bytes hold it (R130). -/
structure Barrier where
  bal : Int
  quota : Nat
  due : Nat
  gen : Nat
  lost : Bool
  broken : Bool
  ann : Nat
  deriving DecidableEq, Repr

def Barrier.ofBytes (b : List Byte) : Barrier :=
  let x := natOfBytes b
  { bal := sx 32 x, quota := bitsOf x 47 32, due := bitsOf x 63 48, gen := bitsOf x 93 64, lost := bitAt x 94,
    broken := bitAt x 95, ann := bitsOf x 127 96 }

def Barrier.bytes (b : Barrier) : List Byte :=
  bytesOfNat 16 (wrapInt 32 b.bal + b.quota % 2 ^ 16 * 2 ^ 32 + b.due % 2 ^ 16 * 2 ^ 48 + b.gen % 2 ^ 30 * 2 ^ 64
    + b.lost.toNat * 2 ^ 94 + b.broken.toNat * 2 ^ 95 + b.ann % 2 ^ 32 * 2 ^ 96)

/-- The GEN field as ABTEST returns it, with LOST in bit 30 and BROKEN in bit 31 (08 R130, 13 R249). -/
def Barrier.genField (b : Barrier) : Nat := b.gen % 2 ^ 30 + b.lost.toNat * 2 ^ 30 + b.broken.toNat * 2 ^ 31

/-- The completion test, made after every change of BAL or DUE (R131). -/
def Barrier.test (b : Barrier) : Barrier :=
  if b.due ≠ 0 then b
  else if b.bal < 0 then { b with broken := true }
  else if b.bal = 0 then { b with gen := (b.gen + 1) % 2 ^ 30, ann := 0, due := b.quota }
  else b

/-- One event (R131). A loss (R134) still sets LOST of a barrier that is BROKEN already, and BAL that ABEXPECT takes above 2^31 − 1, which
only stores to the barrier's bytes make possible, is tested as the sum and stored modulo 2^32: the model's choices (log entry 67). -/
def Barrier.on (b : Barrier) : BarrierEvent → Barrier
  | .init n => { bal := 0, quota := n, due := n, gen := 0, lost := false, broken := false, ann := 0 }
  | .expect x =>
    if b.broken then b
    else if b.due = 0 then { b with broken := true }
    else if 2 ^ 31 ≤ b.ann + x then { b with broken := true }
    else Barrier.test { b with bal := b.bal + x, ann := b.ann + x, due := b.due - 1 }
  | .arrive =>
    if b.broken then b
    else if b.due = 0 then { b with broken := true }
    else Barrier.test { b with due := b.due - 1 }
  | .land x =>
    if b.broken then b
    else if b.bal - x < -2147483648 then { b with broken := true }
    else Barrier.test { b with bal := b.bal - x }
  | .lose => { b with lost := true, broken := true }

/-- The key under which a barrier's signature is kept at its core. -/
def barrierKey (gang off : Nat) : Nat := gang * 2 ^ 20 + off

/-- The barrier at an offset of a gang's scratchpad on a core. -/
def barrierAt (s : State) (gang core off : Nat) : State × Barrier :=
  let s := refillPage s gang core off
  (s, Barrier.ofBytes ((spadMem s gang core).read off 16))

/-- Bytes written at the banks of a core. -/
def spadWrite (s : State) (gang core off : Nat) (bs : List Byte) : State :=
  s.modGang gang fun x => { x with spads := Map.set x.spads (cidOfCore core) (Mem.write (Map.getD x.spads (cidOfCore core) []) off bs) }

/-- What the barrier carries after an event with some releases: a new barrier none; one whose phase changes hands on the releases of the
phase that is complete, and no older ones (R300; log entry 72). -/
def BarSig.on (x : BarSig) (ev : BarrierEvent) (changed : Bool) (sig : Sig) : BarSig :=
  match ev with
  | .init _ => {}
  | .expect _ | .arrive | .land _ | .lose =>
    if changed then { now := [], done := unionList x.now sig } else { x with now := unionList x.now sig }

/-- The fields that an event writes, as offsets and lengths: those that its effect names, none at a BROKEN barrier, and those that it
changes with them (R130 R131). -/
def BarrierEvent.fields (ev : BarrierEvent) (b b' : Barrier) : List (Nat × Nat) :=
  let named := fun (o : Nat) => match ev with
    | .init _ => true
    | .expect _ => !b.broken && (o == 0 || o == 6 || o == 12)
    | .arrive => !b.broken && o == 6
    | .land _ => !b.broken && o == 0
    | .lose => o == 8
  [(0, 4), (4, 2), (6, 2), (8, 4), (12, 4)].filter fun f => named f.1 || (b.bytes.drop f.1).take f.2 != (b'.bytes.drop f.1).take f.2

/-- An event at a barrier, in one step at the bank unit of its core, with its release: the bytes that it writes carry it, as those of
any release do, and the barrier keeps it for the waits of its phase (R130 R300, 15 R280 R285). In a page that cannot be refilled nothing
happens (27 R364; log entry 63). -/
def barrierStep (s : State) (gang core off : Nat) (ev : BarrierEvent) (sig : Sig) : State :=
  if lostPage s (.spad gang core off) then s else
  let (s, b) := barrierAt s gang core off
  let b' := b.on ev
  let s := spadWrite s gang core off b'.bytes
  let s := { s with lineSig := (ev.fields b b').foldl (fun m f => putSigs m (sigKey (.spad gang core (off + f.1))) f.2 sig) s.lineSig }
  let k := barrierKey gang off
  let old : BarSig := Map.getD (s.core core).barSig k {}
  let new := old.on ev (b'.gen != b.gen) sig
  if new = old then s else s.modCore core fun x => { x with barSig := Map.put x.barSig k (if new = {} then none else some new) }

/-- The checks of a barrier operand, in their order (13 R249): form, alignment, gang range; then its bytes (27 R364). -/
def barrierTrap (s : State) (ag : Agent) (a : Word) : Except Trap (Nat × Nat) :=
  if !a.getLsbD 63 || bitsOf a.toNat 62 24 != 0 || bitAt a.toNat 20 then .error { cause := .scratchpadRange, addr := a }
  else if a.toNat % 16 ≠ 0 then .error { cause := .misalign, addr := a }
  else match spadPlace s ag a with
    | .ok (.spad _ c o) => .ok (c, o)
    | .ok (.gen _ _ _) => .error { cause := .scratchpadRange, addr := a }
    | .error t => .error t

/-- The scope of a barrier instruction: CORE at the strand's own core, CLUSTER at a peer's (13 R249). -/
def barrierScope (s : State) (core : Nat) : Scope := if core = s.myCore then .core else .cluster

end Sys2Proof.Machine
end

