-- ==== Sys2Proof/Machine/Path.lean ====
section
/-! DEFINITION. The scalar accesses of a strand that wait (15_order_local R275 R277 R279): which of them come first, how each is
performed, and the scalar loads and stores that join them (log entry 5). -/

namespace Sys2Proof.Machine

/-- One waiting access of the strand is performed: the store, the event at a barrier, or the load, AMO or APPMARK with its register; a
release carries what the strand's unit has written. The releases that a read meets join those of the last scalar read (15 R277 R279
R285). -/
def performOne (s : State) (ag : Agent) (p : PendAccess) : State :=
  let own : Sig := match p.rel with
    | some sc => releaseSig s ag sc
    | none => []
  match p.bar, p.loc, p.load with
  | some e, .spad g c o, _ => barrierStep s g c o e own
  | _, _, none =>
    let s := writeAt s ag p.rt p.loc p.data
    if p.rel.isSome then keepSig s ag p.loc p.data.length own false else s
  | _, _, some l =>
    let sig := match p.mark with
      | none => servedSig s ag p.rt p.loc l.size
      | some f => (s.app f).sig
    let (s, x) := match p.mark, p.amo with
      | some f, _ => (s, (s.app f).word.toNat)
      | none, none => let (s, bs) := readAt s ag p.rt p.loc l.size; (s, natOfBytes bs)
      | none, some (f, a, b) => rmwAt s ag .uc p.loc l.size own fun old => (amoApply f a b (BitVec.ofNat 64 old)).toNat
    s.modMe fun t => { t.wr l.reg (loadWord l.size l.signed x) with ord := { t.ord with readSig := unionList t.ord.readSig sig } }

/-- Performs waiting accesses of the strand, oldest first (15 R277). -/
def performPath (s : State) (ag : Agent) : List PendAccess → State
  | [] => s
  | p :: rest => performPath (performOne s ag p) ag rest

/-- A waiting load. -/
def PendAccess.isLoad (p : PendAccess) : Bool := p.load.isSome

/-- The bytes of a waiting access. -/
def PendAccess.size (p : PendAccess) : Nat :=
  match p.bar, p.load with
  | some _, _ => 16
  | none, none => p.data.length
  | none, some l => l.size

/-- A waiting access names some of n bytes at a place. -/
def PendAccess.overlaps (p : PendAccess) (l : Loc) (n : Nat) : Bool :=
  match p.loc, l with
  | .gen a _ _, .gen b _ _ => decide (a < b + n) && decide (b < a + p.size)
  | .spad g c a, .spad h d b => g == h && c == d && decide (a < b + n) && decide (b < a + p.size)
  | _, _ => false

/-- An access to a DEVICE page. -/
def PendAccess.device (p : PendAccess) : Bool :=
  match p.loc with
  | .gen _ ty _ => ty == .device
  | .spad _ _ _ => false

/-- A scalar write: it writes memory or a barrier (15 R279). -/
def PendAccess.writes (p : PendAccess) : Bool := p.load.isNone || p.amo.isSome

/-- A waiting access is performed after an earlier one of the strand: a release of its own after every one, a write after one that a
release fence lies behind, one to a DEVICE page after those to DEVICE pages, and any after one that names a byte of it (05 R70, 13 R243,
15 R275 R279, 16 R291). -/
def PendAccess.follows (p q : PendAccess) : Bool :=
  p.own || (p.writes && decide (p.fences < q.fences)) || (p.device && q.device) || q.overlaps p.loc p.size

/-- The waiting accesses, newest first, that are picked or come before one that is, and the others. -/
def splitPath (pick : PendAccess → Bool) : List PendAccess → List PendAccess → List PendAccess × List PendAccess
  | _, [] => ([], [])
  | need, p :: rest =>
    if pick p || need.any (·.follows p) then
      let (a, b) := splitPath pick (p :: need) rest
      (p :: a, b)
    else
      let (a, b) := splitPath pick need rest
      (a, p :: b)

/-- Waiting accesses of the strand are performed, with those that come before them. -/
def drainPicked (pick : PendAccess → Bool) (s : State) : State :=
  match splitPath pick [] s.me.ord.path.reverse with
  | ([], _) => s
  | (due, rest) => performPath (s.modMe fun t => { t with ord := { t.ord with path := rest.reverse } }) s.agent due.reverse

/-- Every waiting load of the strand is performed. -/
def drainLoads (s : State) : State := drainPicked (·.isLoad) s

/-- Every earlier plain access of the strand is performed (15 R279, 24 R338). -/
def drainPath (s : State) : State :=
  if s.me.ord.path.isEmpty then s else
  performPath (s.modMe fun t => { t with ord := { t.ord with path := [] } }) s.agent s.me.ord.path

/-- Scalar accesses to overlapping bytes keep program order (15 R275). -/
def drainOverlap (s : State) (l : Loc) (n : Nat) : State := drainPicked (·.overlaps l n) s

/-- What an access that is performed now comes after: the accesses to its bytes, and for a DEVICE page those to DEVICE pages (05 R70, 15
R275). -/
def PendAccess.precedes (p : PendAccess) (l : Loc) (n : Nat) : Bool :=
  p.overlaps l n || (p.device && (match l with
    | .gen _ ty _ => ty == .device
    | .spad _ _ _ => false))

def drainBefore (s : State) (l : Loc) (n : Nat) : State := drainPicked (·.precedes l n) s

/-- The accesses before a release fence are performed: they come before every scalar write behind it (13 R243, 16 R291). -/
def drainFenced (s : State) : State := drainPicked (fun p => decide (0 < p.fences)) s

/-- What a scalar write that is performed now comes after: with a release of its own every earlier access, else those that it follows (15
R275 R279). -/
def beforeWrite (s : State) (own : Bool) (l : Loc) (n : Nat) : State :=
  if own then drainPath s else drainPicked (fun p => decide (0 < p.fences) || p.precedes l n) s

/-- A synchronising operation comes after the strand's releases that wait: race-free programs are sequentially consistent (15 R289). -/
def drainReleases (s : State) : State := drainPicked (·.rel.isSome) s

/-- The home state of an APPEND page is used by the strand once its waiting APPMARKs of the page are performed (07 R110, 15 R275). -/
def drainMark (f : Nat) (s : State) : State := drainPicked (·.mark == some f) s

/-- An access may wait: the step leaves work pending, and the bytes lie in a NORMAL or DEVICE page or in scratchpad (15 R277; log
entries 3 and 5). -/
def mayWait (s : State) (l : Loc) : Bool :=
  s.later && (match l with
    | .gen _ ty _ => ty == .normal || ty == .device
    | .spad _ _ _ => true)

/-- A scalar read of the strand: those it comes after first, then the bytes; the releases that come with them are kept for a
later acquire fence (15 R279). -/
def scalarRead (s : State) (rt : ReqType) (l : Loc) (n : Nat) : State × List Byte :=
  let s := drainBefore s l n
  let sig := servedSig s s.agent rt l n
  let (s, bs) := readAt s s.agent rt l n
  (s.modMe fun t => { t with ord := { t.ord with readSig := sig } }, bs)

/-- An access stands behind the strand's waiting ones (15 R277). -/
def waitBehind (s : State) (p : PendAccess) : State :=
  s.modMe fun t => { t with ord := { t.ord with path := t.ord.path ++ [p] } }

/-- A relaxed load of n bytes to a register: it waits, or reads now (13 R234, 15 R277). -/
def scalarLoad (s : State) (rt : ReqType) (d : SReg) (l : Loc) (n : Nat) (signed : Bool) : State :=
  if mayWait s l then waitBehind s { loc := l, data := [], rt := rt, load := some ⟨d, n, signed⟩ }
  else
    let (s, bs) := scalarRead s rt l n
    s.modMe fun t => t.wr d (loadWord n signed (natOfBytes bs))

/-- The scope at which the next scalar write is a release: its own, or that of a waiting release fence (15 R279). -/
def writeRelease (s : State) (own : Option Scope) : Option Scope :=
  match own, s.me.ord.relFence with
  | some a, some b => some (if a.code < b.code then b else a)
  | some a, none => some a
  | none, b => b

/-- The release fence has met its write. -/
def endFence (s : State) : State :=
  if s.me.ord.relFence.isNone then s else s.modMe fun t => { t with ord := { t.ord with relFence := none } }

/-- A release fence lies behind the waiting accesses, and makes the next scalar write a release (13 R243, 15 R279). -/
def fenceBehind (s : State) (sc : Scope) : State :=
  s.modMe fun t => { t with ord := { t.ord with
    path := t.ord.path.map fun p => { p with fences := p.fences + 1 }
    relFence := writeRelease s (some sc) } }

/-- A scalar write of the strand, a release of its own at a scope, one that a fence made a release, or plain; it may wait, since no
release orders the accesses after it (15 R277 R279). -/
def scalarWrite (s : State) (rt : ReqType) (own : Option Scope) (l : Loc) (bs : List Byte) : State :=
  let rel := writeRelease s own
  let s := endFence s
  if mayWait s l then waitBehind s { loc := l, data := bs, rt := rt, rel := rel, own := own.isSome }
  else
    let s := beforeWrite s own.isSome l bs.length
    let s := writeAt s s.agent rt l bs
    match rel with
    | some sc => keepSig s s.agent l bs.length (releaseSig s s.agent sc) false
    | none => s

end Sys2Proof.Machine
end

