-- ==== Sys2Proof/Machine/Context.lean ====
section
/-! DEFINITION. The context block in the partition's save space: the strand block (25_faults R348 R349), the gang header
and the matrix state block (R350 R351), written byte by byte, and read back at restore. What the layout has no room for
(the number of entries, their window base and channel, the pattern behind a stream slot) is kept beside it (log entry
14). -/

namespace Sys2Proof.Machine

def zeros (n : Nat) : List Byte := List.replicate n 0
def le (n x : Nat) : List Byte := bytesOfNat n x

/-- The sequence number at VCP: the oldest entry's, or the one the next entry will get (02 R12). -/
def headSeq (q : List QItem) (next : Nat) : Nat :=
  match q with
  | [] => next
  | .entry e :: _ => e.seq
  | _ :: rest => headSeq rest next

/-- The entries of a queue, oldest first. -/
def entriesOf : List QItem → List Entry
  | [] => []
  | .entry e :: rest => e :: entriesOf rest
  | _ :: rest => entriesOf rest

/-- The entries on which a strand sleeps until they complete (13 R254, 14 R270). -/
def sleepEntry (i : Instr) : Bool :=
  match i with
  | .hsync _ | .vwaitall _ _ _ | .vwaitany _ _ _ => true
  | _ => false

/-- The strand sleeps on an entry of its queue: the last one, since nothing is pushed behind it meanwhile. -/
def Strand.sleepsInLanes (t : Strand) : Bool := (entriesOf t.queue).any fun e => sleepEntry e.instr

/-- A strand is ready and sleeps in no wait (02 R27). -/
def Strand.isReady (t : Strand) : Bool := t.status == .ready && t.wait.since.isNone && !t.sleepsInLanes

/-- VCP (02 R12). -/
def Strand.vcp (t : Strand) : Nat := headSeq t.queue t.seqNext

/-- One stream slot in its 32 bytes (R348; the places inside them are the model's, log entry 13). -/
def streamBytes (q : StreamSlot) : List Byte :=
  le 1 q.bound.toNat ++ le 1 q.slot ++ le 1 q.tag.code ++ zeros 5 ++ le 8 q.pos ++ le 8 q.record.toNat ++ zeros 8

/-- One queue entry in its 48 bytes (R348). -/
def entryBytes (e : Entry) : List Byte :=
  le 4 (encode e.instr).toNat ++ le 4 e.seq ++ le 4 e.vl ++ le 4 e.lg ++ le 8 e.x.toNat ++ le 8 e.y.toNat
    ++ le 8 e.z.toNat ++ le 1 (e.vw % 4) ++ zeros 7

/-- A slot of the strand, with its default contents. -/
def VecState.slot (v : VecState) (n : Nat) : Slot := Map.getD v.slots n {}

/-- The high-water mark of a slot the strand may name, 0 outside the allotment (R349). -/
def hwmOf (v : VecState) (n : Nat) : Nat := if n < v.valc then Nat.min (v.slot n).hwm 16 else 0

/-- The offset of a slot's data in the strand block (R348). -/
def slotOffset (v : VecState) : Nat → Nat
  | 0 => 13568
  | n + 1 => slotOffset v n + hwmOf v n * 288

def slotDescriptor (v : VecState) (n : Nat) : List Byte :=
  le 8 ((if n < v.valc then (v.slot n).tag.code else 0) + hwmOf v n * 256 + slotOffset v n * 2 ^ 32)

/-- A slot's data: one slice of 256 bytes and its 32 sidecar bytes for each logical group below HWM (R348). -/
def slotData (v : VecState) (n : Nat) : List Byte :=
  let sl := v.slot n
  (upto (hwmOf v n)).flatMap fun g => le 256 (elemAt sl.bits.toNat 2048 g) ++ le 32 (elemAt sl.side.toNat 256 g)

/-- The strand block (R348); `hdr` is the address of the gang header. -/
def strandBlock (t : Strand) (hdr : Nat) : List Byte :=
  let v := t.v
  let es := entriesOf t.queue
  (zeros 8 ++ (upto 63).flatMap fun i => le 8 (t.regs[i + 1]?.getD 0).toNat)
  ++ le 8 t.pc.toNat
  ++ le 8 (t.level.num + t.pd.toNat * 4 + t.fd.toNat * 8 + v.fppend.toNat * 16 + t.stopSeq * 2 ^ 32)
  ++ le 8 v.vl ++ le 8 v.vw ++ le 8 v.lg ++ le 8 v.wb ++ le 8 v.valc ++ le 8 t.vcp ++ le 8 t.fcsr.toNat
  ++ le 8 t.efc.toNat ++ le 8 t.hspan.toNat ++ le 8 t.wto.toNat ++ le 8 t.traph.toNat ++ le 8 t.glink.toNat
  ++ le 8 t.glevel.num
  ++ le 8 v.vstart
  ++ le 1024 v.vdone.toNat
  ++ ((upto 7).flatMap fun i => le 1024 (v.masks[i + 1]?.getD 0).toNat)
  ++ ((upto 4).flatMap fun i => streamBytes (v.streams[i]?.getD {}))
  ++ le 8 hdr ++ zeros 248
  ++ (es.take 64).flatMap entryBytes ++ zeros ((64 - es.length) * 48)
  ++ (upto 160).flatMap (slotDescriptor v)
  ++ (upto 160).flatMap (slotData v)

/-- The number in n bytes of a block from an offset. -/
def blk (b : List Byte) (off n : Nat) : Nat := natOfBytes ((b.drop off).take n)

/-- The slot that a strand block holds at its descriptor; a reserved tag code gives RAW (log entry 14). -/
def readSlot (b : List Byte) (n : Nat) : Slot :=
  let d := blk b (12288 + 8 * n) 8
  let off := d / 2 ^ 32
  let h := Nat.min (bitsOf d 12 8) 16
  { tag := (Tag.ofCode (d % 16)).getD .raw
    hwm := h
    bits := BitVec.ofNat 32768 (((upto h).map fun g => blk b (off + g * 288) 256 * 2 ^ (2048 * g)).sum)
    side := BitVec.ofNat 4096 (((upto h).map fun g => blk b (off + g * 288 + 256) 32 * 2 ^ (256 * g)).sum) }

/-- A queue entry read back over the one it was written from. -/
def readEntry (b : List Byte) (i : Nat) (e : Entry) : Entry :=
  let o := 9216 + 48 * i
  let instr := match decode (BitVec.ofNat 32 (blk b o 4)) with
    | .ok j => j
    | .error _ => e.instr
  { e with
    instr := instr
    src := if instr = e.instr then e.src else none
    seq := blk b (o + 4) 4
    vl := blk b (o + 8) 4
    lg := blk b (o + 12) 4
    x := BitVec.ofNat 64 (blk b (o + 16) 8)
    y := BitVec.ofNat 64 (blk b (o + 24) 8)
    z := BitVec.ofNat 64 (blk b (o + 32) 8)
    vw := blk b (o + 40) 1 % 4
    credits := 0
    early := [] }

/-- The entries of a queue read back, in order. -/
def readQueue (b : List Byte) : Nat → List QItem → List QItem
  | _, [] => []
  | i, .entry e :: rest => .entry (readEntry b i e) :: readQueue b (i + 1) rest
  | i, q :: rest => q :: readQueue b i rest

/-- The fields of FCSR and of HSPAN (03 R41 R43), and the bits of a code address (03 R41, 11 R195 R201); every other bit is reserved and
reads as zero, whatever a context block holds (00 R3). -/
def fcsrFields : Word := 0x11FFF
def hspanFields : Word := 0x170F
def codeAddress : Word := 0xFFFFFFFFFFFC

/-- The level that a block gives a strand: RESUME raises no strand above the level it stopped at, since only GATE raises one (22 R303). -/
def restoredLevel (w : Nat) (t : Strand) : Level :=
  if (Level.ofNum w).num < t.level.num then t.level else Level.ofNum w

/-- A strand restored from its block; `t` is the strand as it stopped (R353). PD and FD are clear at level K (22 R307). What fields
hold that only an edited block can have is the model's choice (log entry 14). -/
def restoreStrand (b : List Byte) (t : Strand) : Strand :=
  let w := blk b 520 8
  let f := fun k => blk b (528 + 8 * k) 8
  let valc := Nat.min (f 4) 160
  let level := restoredLevel w t
  { t with
    regs := Vector.ofFn fun i => BitVec.ofNat 64 (if i.val = 0 then 0 else blk b (8 * i.val) 8)
    pc := BitVec.ofNat 64 (blk b 512 8)
    level := level
    pd := bitAt w 2 && level == .l
    fd := bitAt w 3 && level == .l
    fcsr := BitVec.ofNat 64 (f 6) &&& fcsrFields
    efc := BitVec.ofNat 32 (f 7)
    hspan := BitVec.ofNat 64 (f 8) &&& hspanFields
    wto := BitVec.ofNat 64 (f 9)
    traph := BitVec.ofNat 64 (f 10) &&& codeAddress
    glink := if BitVec.ofNat 64 (f 11) = t.glink then t.glink else BitVec.ofNat 64 (f 11) &&& codeAddress
    glevel := Level.ofNum (f 12)
    queue := readQueue b 0 t.queue
    v := { t.v with
      vl := f 0
      vw := f 1 % 4
      lg := f 2
      wb := f 3
      valc := valc
      fppend := bitAt w 4
      vstart := blk b 632 8
      vdone := BitVec.ofNat 8192 (blk b 640 1024)
      masks := Vector.ofFn fun i => if i.val = 0 then t.v.masks[0] else BitVec.ofNat 8192 (blk b (1664 + 1024 * (i.val - 1)) 1024)
      streams := Vector.ofFn fun i =>
        let o := 8832 + 32 * i.val
        { t.v.streams[i] with bound := blk b o 1 % 2 == 1, slot := blk b (o + 1) 1,
                              tag := (Tag.ofCode (blk b (o + 2) 1)).getD .raw, pos := blk b (o + 8) 8,
                              record := BitVec.ofNat 64 (blk b (o + 16) 8), ahead := [] }
      slots := (upto valc).map fun n => (n, readSlot b n) } }

/-! The gang header and the matrix state block (R350 R351). -/

/-- The most bytes a strand block takes: 160 slots of 16 groups, rounded to 256. -/
def strandBlockMax : Nat := roundUp (13568 + 160 * 16 * 288) 256
/-- The most bytes a matrix state block takes, rounded to 256. -/
def matrixBlockMax : Nat := roundUp (128 + 8 * 18432 + 256 * 512) 256

def Gang.mx (g : Gang) : Bool := bitAt g.task.flags 2

/-- The offset of the matrix state block of gang core j (R351). -/
def matrixOffset (g : Gang) (j : Nat) : Nat := if g.mx && decide (j < g.task.ncore) then 1024 + j * matrixBlockMax else 0

/-- The offset of the strand block of SIDX i (R351). -/
def strandOffset (g : Gang) (i : Nat) : Nat :=
  if i < g.task.nstr then 1024 + (if g.mx then g.task.ncore * matrixBlockMax else 0) + i * strandBlockMax else 0

/-- The 64 KiB units of a gang's context block (log entry 13). -/
def ctxUnitsOf (g : Gang) : Nat :=
  ceilDiv (1024 + (if g.mx then g.task.ncore * matrixBlockMax else 0) + g.task.nstr * strandBlockMax) 0x10000

/-- The gang header (R351). -/
def gangHeader (g : Gang) (queue index : Nat) : List Byte :=
  le 8 (g.ctxUnits * 0x10000) ++ le 4 g.gid ++ le 4 queue ++ le 4 index ++ le 1 g.task.nstr ++ le 1 g.task.ncore
  ++ le 1 g.task.floor ++ le 1 g.task.regs ++ le 1 g.task.spad ++ le 1 g.task.flags ++ zeros 6
  ++ (upto 8).flatMap (fun j => le 8 (matrixOffset g j))
  ++ (upto 32).flatMap (fun i => le 8 (strandOffset g i))
  ++ (upto 8).flatMap (fun j =>
      le 8 (if j < g.task.ncore ∧ 0 < g.task.spad then backingAddr g ((g.cids[j]?).getD 0) 0 else 0))
  ++ zeros 608

def AccKind.code : AccKind → Nat
  | .none => 0 | .f32 => 1 | .i32 => 2

def AccKind.ofCode (n : Nat) : AccKind :=
  match n % 4 with
  | 1 => .f32 | 2 => .i32 | _ => .none

/-- The matrix state block of one core (R350 R351). -/
def matrixBlock (tiles : Map Tile) (acc : Map AccRow) : List Byte :=
  let tile := fun t => Map.getD tiles t {}
  let row := fun r => Map.getD acc r {}
  (upto 8).flatMap (fun t => le 1 (tile t).tag.code)
  ++ (upto 8).flatMap (fun t => le 2 (tile t).depth)
  ++ (upto 64).flatMap (fun q => le 1 (((upto 4).map fun j => (row (4 * q + j)).kind.code * 4 ^ j).sum))
  ++ le 1 (((upto 8).map fun t => (tile t).written.toNat * 2 ^ t).sum) ++ zeros 39
  ++ (upto 8).flatMap (fun t => if (tile t).written then le 16384 (tile t).bits.toNat ++ le 2048 (tile t).side.toNat else [])
  ++ (upto 256).flatMap (fun r => if (row r).kind == .none then [] else le 512 (row r).bits.toNat)

/-- The tiles of a matrix state block: each saved tile stands behind the saved tiles of lower number. -/
def readTiles (b : List Byte) : Map Tile :=
  let mask := blk b 88 1
  let rank := fun n => ((upto n).map fun t => (bitAt mask t).toNat).sum
  (upto 8).map fun t =>
    let o := 128 + rank t * 18432
    (t, { tag := (Tag.ofCode (blk b t 1 % 16)).getD .raw, depth := blk b (8 + 2 * t) 2, written := bitAt mask t,
          bits := if bitAt mask t then BitVec.ofNat 131072 (blk b o 16384) else 0,
          side := if bitAt mask t then BitVec.ofNat 16384 (blk b (o + 16384) 2048) else 0 })

/-- The accumulator rows of a matrix state block whose kind is not NONE. -/
def readAcc (b : List Byte) : Map AccRow :=
  let mask := blk b 88 1
  let base := 128 + ((upto 8).map fun t => (bitAt mask t).toNat).sum * 18432
  let kind := fun r => AccKind.ofCode (blk b (24 + r / 4) 1 / 4 ^ (r % 4))
  let rank := fun n => ((upto n).map fun r => if kind r == .none then 0 else 1).sum
  ((upto 256).filter fun r => kind r != .none).map fun r =>
    (r, { kind := kind r, bits := BitVec.ofNat 4096 (blk b (base + rank r * 512) 512) })

end Sys2Proof.Machine
end

