-- ==== Sys2Proof/Machine/Ops.lean ====
section
/-! DEFINITION. The named operations over the registers of a strand, the lane allocation table and the grant (02 R18 to
R21), the save space, the fault record queue (22 R310, 25 R343), and taking an exception: `takeTrap`, written once for
compute strands (25 R345 R348) and Fliven strands (22 R309), with the returns from one beside it. -/

namespace Sys2Proof.Machine

/-! Registers. -/

/-- s[n]: s0 reads as zero (03 R31). -/
def State.rd (s : State) (r : SReg) : Word := if r = 0 then 0 else s.me.regs[r.toNat]'(by have := r.isLt; omega)

def State.wr (s : State) (r : SReg) (x : Word) : State := { s with me := s.me.wr r x }

/-- The second register of a pair (03 R31). -/
def pairReg (r : SReg) : SReg := r + 1

/-- Goes on at an address: the instruction is complete, and with it any wait and any turn given up. -/
def State.goto (s : State) (pc : Word) : State :=
  { s with me := { s.me with pc := pc, wait := {}, owed := [] } }

/-- The instruction is complete and the next word follows. -/
def State.retire (s : State) : State := s.goto (s.me.pc + 4)

/-- The checks of `jump` (11 R180); its faults name no memory address (log entry 18). -/
def jumpTrap (x : Word) : Option Trap :=
  if x.getLsbD 63 || bitsOf x.toNat 62 48 != 0 then some { cause := .protection }
  else if bitsOf x.toNat 1 0 != 0 then some { cause := .misalign }
  else none

/-! Lane groups (02 R18 to R21, 27 R365). -/

/-- Slots after the top groups have left: contents lost, high-water mark lowered (02 R21, 25 R349). -/
def Slot.keep (x : Slot) (n : Nat) : Slot :=
  { x with bits := BitVec.ofNat 32768 (x.bits.toNat % 2 ^ (2048 * n)), side := BitVec.ofNat 4096 (x.side.toNat % 2 ^ (256 * n)),
           hwm := Nat.min x.hwm n }

/-- Groups of a core become free; one due for retirement leaves the table (27 R363 R365). -/
def freeGroups (s : State) (core : Nat) (gs : List Nat) : State :=
  s.modCore core fun x => { x with groups := x.groups.mapIdx fun i g =>
    if (gs.contains i) then { g with owner := none, freeSince := s.now, retired := g.retired || g.retireDue, retireDue := false }
    else g }

/-- A change of the held groups or of the allotment takes effect at its place in queue order (02 R21, 11 R194); a stream
slot bound to a released register is freed (03 R40). -/
def applyMarker (s : State) : QItem → State
  | .entry _ => s
  | .dropGroups keep freed =>
    freeGroups (s.modMe fun t => { t with v := { t.v with slots := t.v.slots.map fun p => (p.1, p.2.keep keep) } }) s.myCore freed
  | .dropSlots lo hi =>
    s.modMe fun t => { t with v := { t.v with
      slots := t.v.slots.filter fun p => decide (p.1 < lo) || decide (hi ≤ p.1)
      streams := t.v.streams.map fun q => if q.bound && decide (lo ≤ q.slot) && decide (q.slot < hi) then {} else q } }

/-- Applies the changes at the head of the queue, up to its oldest entry. -/
def settleMarkers (s : State) : List QItem → State
  | [] => { s with me := { s.me with queue := [] } }
  | .entry e :: rest => { s with me := { s.me with queue := .entry e :: rest } }
  | q :: rest => settleMarkers (applyMarker s q) rest

/-- Puts an item behind the queue. -/
def pushItem (s : State) (q : QItem) : State := settleMarkers s (s.me.queue ++ [q])

/-- Working lane groups of a core: G of 27 R365. -/
def workingGroups (x : Core) : Nat := (x.groups.filter fun g => !g.retired).length

/-- Takes free groups for a strand slot in ascending physical number, at most n (02 R19). -/
def takeGroups (slot : Nat) : Nat → Nat → List LaneGroup → List LaneGroup × List Nat
  | _, _, [] => ([], [])
  | 0, _, gs => (gs, [])
  | n + 1, i, g :: gs =>
    if g.owner.isNone && !g.retired then
      let (r, l) := takeGroups slot n (i + 1) gs
      ({ g with owner := some slot } :: r, i :: l)
    else
      let (r, l) := takeGroups slot (n + 1) (i + 1) gs
      (g :: r, l)

/-- A sleeping group that a strand holds: it is to wake (23 R329). -/
def LaneGroup.toWake (g : LaneGroup) : Bool := g.asleep && g.owner.isSome

/-- The groups of a core are taken by a strand: the first sleeping one among those held starts the wake (23 R329). -/
def Core.hold (now : Nat) (gs : List LaneGroup) (x : Core) : Core :=
  { x with
    groups := gs
    waking := if !gs.any (·.toWake) then none else if x.groups.any (·.toWake) then some (x.waking.getD now) else some now }

/-- The width of a width code (10 R170). -/
def widthOf (code : Nat) : Nat := 4 * 2 ^ code

/-- Sets VL, VW, LG and the logical groups. -/
def setGrant (s : State) (vl vw lg : Nat) (gs : List Nat) : State :=
  s.modMe fun t => { t with v := { t.v with vl := vl, vw := vw, lg := lg, groups := gs } }

/-- The length part of a grant: capacity, and whole blocks of 32 in REPRO mode (02 R19). -/
def grantLen (repro : Bool) (avl held per : Nat) : Nat :=
  let vl := Nat.min avl (held * per)
  if repro && decide (32 ≤ vl) then vl - vl % 32 else vl

/-- grant(avl, w) for the strand whose turn it is (02 R19), with G working groups in place of 16 (27 R365). -/
def grant (s : State) (avl code : Nat) : State × Nat :=
  let per := 2048 / widthOf code
  let v := s.me.v
  let want := Nat.max s.me.id.floor (Nat.min (workingGroups (s.core s.myCore)) (ceilDiv avl per))
  let repro := s.me.fcsr.getLsbD 16
  if want < v.lg then
    let n := grantLen repro avl want per
    (pushItem (setGrant s n code want (v.groups.take want)) (.dropGroups want (v.groups.drop want)), n)
  else
    let (gs, new) := takeGroups (slotOfKey s.key) (want - v.lg) 0 (s.core s.myCore).groups
    let held := v.lg + new.length
    let n := grantLen repro avl held per
    (setGrant (s.modCore s.myCore (·.hold s.now gs)) n code held (v.groups ++ new), n)

/-! The save space of a partition (23 R319, 05 R74, 25). -/

/-- The first place of n free units at or above a unit (log entry 13). -/
def findUnits (used : List (Nat × Nat × Nat)) (size n : Nat) : Nat → Nat → Option Nat
  | 0, _ => none
  | fuel + 1, u =>
    if size < u + n then none
    else if used.any (fun p => decide (p.1 < u + n) && decide (u < p.1 + p.2.1)) then findUnits used size n fuel (u + 1)
    else some u

/-- The unit behind every backing area in use; tags are 2 × gang for backing areas, 2 × gang + 1 for contexts. -/
def backingEnd (used : List (Nat × Nat × Nat)) : Nat :=
  used.foldl (fun m p => if p.2.2 % 2 = 0 then Nat.max m (p.1 + p.2.1) else m) 1

/-- Takes n units of a partition's save space for a tag, from a unit up; the device address of the first. -/
def takeUnits (s : State) (p n tag lowest : Nat) : Option (State × Nat) :=
  let x := s.part p
  match findUnits x.save x.savesize.toNat n (x.save.length + 1 + Nat.min x.savesize.toNat 65536) lowest with
  | none => none
  | some u => some (s.modPart p fun y => { y with save := y.save ++ [(u, n, tag)] }, x.savebase.toNat + u * 0x10000)

/-- A write of the part's own to device memory. -/
def physWrite (s : State) (pa : Nat) (bs : List Byte) : State :=
  { clearSig s pa bs.length with mem := s.mem.write pa bs }

/-- Gives a gang its context block, if it has none and the save space holds one, and writes the header (25 R351). -/
def allotContext (s : State) (g : Nat) : State :=
  match s.gang? g with
  | none => s
  | some x =>
    if x.ctx ≠ 0 then s else
    let n := ctxUnitsOf x
    match takeUnits s x.part n (2 * g + 1) (backingEnd (s.part x.part).save) with
    | none => s
    | some (s, a) =>
      let x := { x with ctx := a, ctxUnits := n }
      let (q, i) := match Map.get? s.launches x.launch with
        | some l => (l.queue, l.index)
        | none => (0, 0)
      physWrite { s with gangs := Map.set s.gangs g x } a (gangHeader x q i)

/-- The address of a strand's block in its gang's context block, 0 without one. -/
def ctxOf (s : State) (t : Strand) : Nat :=
  match s.gang? t.id.gang with
  | none => 0
  | some g => if g.ctx = 0 then 0 else g.ctx + strandOffset g t.id.sidx

/-- Saves a stopped strand into its gang's context block (25 R348). -/
def saveStrand (s : State) (t : Strand) : State :=
  match s.gang? t.id.gang with
  | none => s
  | some g => if g.ctx = 0 then s else physWrite s (g.ctx + strandOffset g t.id.sidx) (strandBlock t g.ctx)

/-! The fault record queue (22 R310, 25 R343). -/

/-- The strand handle (22 R310). -/
def handleOf (key part seq : Nat) : Nat := key % 1024 % 4 + key % 1024 / 4 % 8 * 4 + key % 1024 / 32 % 8 * 32
  + key % 1024 / 256 * 256 + part * 1024 + seq % 2 ^ 32 * 65536

/-- A 64-byte fault record (25 R343). -/
def recordBytes (handle : Nat) (t : Trap) (kind lvl vseq pc word vstart ctx time : Nat) : List Byte :=
  le 8 handle ++ le 1 t.cause.code ++ le 1 t.sub ++ le 1 kind ++ le 1 lvl ++ le 4 vseq ++ le 8 pc ++ le 8 t.addr.toNat
  ++ le 4 word ++ le 4 vstart ++ le 8 ctx ++ le 8 t.info.toNat ++ le 8 time

/-- Where the next record goes, if its slot is free and its write would succeed (22 R310). -/
def frqSlot (s : State) (p : Nat) : Except Trap (Option Loc) :=
  let x := s.part p
  if x.frqsize ≤ (x.frqtail + 2 ^ 32 - x.frqhead) % 2 ^ 32 then .ok none
  else
    let ag := hwAgent p (dieOfCore (p * 32 / s.nparts * 8))
    match check s ag .hwWrite (x.frqbase + BitVec.ofNat 64 (64 * (x.frqtail % x.frqsize))) 64 64 with
    | .error t => .error t
    | .ok pl => if isRemote pl.loc.pa then .error { cause := .pageType } else .ok (some pl.loc)

/-- Credits go back to a copy channel (08 R126). -/
def freeCredits (s : State) (core ch n : Nat) : State :=
  if n = 0 then s else
  let x := Map.getD (s.core core).chans ch {}
  s.modCore core fun y => { y with chans := Map.set y.chans ch { x with held := x.held - n } }

/-- A Fliven strand that sleeps in WAITUNTIL for a partition goes on: its queue holds a record (22 R310). -/
def Strand.wakeFrq (p : Nat) (t : Strand) : Strand :=
  match t.wait.on_ with
  | some (.waituntil _) =>
    if t.fliven && t.fl.spid == p && t.status == .ready then { t with pc := t.pc + 4, wait := {}, owed := [] } else t
  | _ => t

/-- Writes one record into its slot, then advances FRQTAIL, which wakes the Fliven strands of the partition (22 R310). -/
def frqPut (s : State) (p : Nat) (l : Loc) (bs : List Byte) : State :=
  let s := (writePieces (hwAgent p 0) .uc l bs 8 s).modPart p fun x => { x with frqtail := (x.frqtail + 1) % 2 ^ 32 }
  { s with me := s.me.wakeFrq p, others := s.others.map fun q => (q.1, q.2.wakeFrq p) }

/-- An entry on the management port log. -/
def logEntry (s : State) (kind v : Nat) : State := { s with mgmtLog := s.mgmtLog ++ [(kind, v)] }

/-- What waited for a record of a partition. -/
def afterRecord (p : Nat) (next : Option AfterRec) (s : State) : State :=
  match next with
  | none => s
  | some (.message v) => { s with msix := s.msix ++ [(p, v)] }
  | some (.credit core ch) => freeCredits s core ch 1

/-- Writes held records, oldest first, while their slots are to be had. A fault of the slot's write keeps the record held and is
reported on the management port log (22 R310; log entry 48). -/
def frqDrain (p : Nat) : Nat → State → State
  | 0, s => s
  | n + 1, s =>
    match (s.part p).held with
    | [] => s
    | r :: rest =>
      match frqSlot s p with
      | .error t =>
        if r.logged then s
        else (logEntry s 1 t.cause.code).modPart p fun x => { x with held := { r with logged := true } :: rest }
      | .ok none => s
      | .ok (some l) => frqDrain p n (afterRecord p r.next ((frqPut s p l r.bytes).modPart p fun x => { x with held := rest }))

/-- Posts a record to a partition's queue, with what follows it; while the slot is not to be had it stays held (22 R310). -/
def postRecord (s : State) (p core : Nat) (bs : List Byte) (next : Option AfterRec := none) : State :=
  let s := s.modPart p fun x => { x with held := x.held ++ [{ core := core, bytes := bs, next := next }] }
  frqDrain p ((s.part p).held.length) s

/-- A record of the part's own: KIND 2 to 4 name no strand (25 R343). `key` names the unit in the handle form. -/
def postUnit (s : State) (p key kind : Nat) (t : Trap) (next : Option AfterRec := none) : State :=
  postRecord s p (coreOfKey key) (recordBytes (handleOf key p 0) t kind 0 0 0 0 0 0 s.now) next

/-! Taking an exception and returning from one. -/

/-- A trap of a Fliven strand: EPC, ECAUSE, EVAL and ELEVEL, level F, TVEC; a second fault before the handler has
written EPC stops the core (22 R309). That EVAL holds the faulting word for ILLEGAL and PRIVILEGE and else the address, 0 where there is
none, is the model's choice (R308; log entry 18). -/
def flivenTrap (word : Nat) (t : Trap) (s : State) : State :=
  if s.me.fl.trapped then
    s.modMe fun m => { m with status := .stopped, fl := { m.fl with dead := some t.cause.code }, wait := {}, owed := [] }
  else
    let val : Word := match t.cause with
      | .illegal | .privilege => BitVec.ofNat 64 word
      | _ => t.addr
    s.modMe fun m => { m with
      fl := { m.fl with epc := m.pc, ecause := BitVec.ofNat 64 (t.cause.code + 256 * t.sub), faultVal := val,
                        elevel := m.level.num, trapped := true }
      level := .f
      pc := m.fl.tvec
      wait := {}
      owed := [] }

/-- The strand as it stops: the next stop sequence, and for TRAP and BREAK the next word as PC (22 R310, 11 R199). -/
def Strand.stop (m : Strand) (kind : Nat) (t : Trap) : Strand :=
  { m with
    status := .stopped
    stopSeq := (m.stopSeq + 1) % 2 ^ 32
    stopped := some t
    stopKind := kind
    pc := if t.cause == .trap || t.cause == .break_ then m.pc + 4 else m.pc
    wait := {}
    owed := [] }

/-- The saved TCOPY entries of a stopping strand return their credits (08 R126, 25 R347). -/
def returnCredits (core : Nat) : List QItem → State → State × List QItem
  | [], s => (s, [])
  | .entry e :: rest, s =>
    let tcopy := match e.instr with
      | .tcopy _ _ _ => true
      | _ => false
    let s := if tcopy then freeCredits s core e.chan e.credits else s
    let (s, q) := returnCredits core rest s
    (s, .entry (if tcopy then { e with credits := 0 } else e) :: q)
  | i :: rest, s =>
    let (s, q) := returnCredits core rest s
    (s, i :: q)

/-- A compute strand stops: its state goes to the save space and its record to the queue (25 R343 R345 R348, 22 R310).
`kind` is 0 at PC and 1 at VCP; `pc` and `word` are those of the record. -/
def stopStrand (kind : Nat) (word : Nat) (t : Trap) (s : State) : State :=
  let pc := s.me.pc
  let (s, q) := returnCredits s.myCore s.me.queue s
  let m := { s.me.stop kind t with queue := q }
  let s := allotContext { s with me := m } m.id.gang
  let s := saveStrand s m
  postRecord s m.id.pid s.myCore
    (recordBytes (handleOf s.key m.id.pid m.stopSeq) t kind
      (m.level.num + 4 * m.pd.toNat + 8 * m.fd.toNat)
      (if kind = 1 then m.vcp else 0) pc.toNat word
      (if kind = 1 || t.cause == .preempt then m.v.vstart else 0) (ctxOf s m) s.now)

/-- Taking an exception: a Fliven strand traps to TVEC, a compute strand stops for Fliven (22 R309 R310, 25 R345). -/
def takeTrap (kind word : Nat) (t : Trap) (s : State) : State :=
  if s.me.fliven then flivenTrap word t s else stopStrand kind word t s

/-- ERET: the level of ELEVEL, then the jump to EPC (22 R312). -/
def flivenReturn (s : State) : State :=
  match jumpTrap s.me.fl.epc with
  | some t => flivenTrap 0 t (s.modMe fun m => { m with level := Level.ofNum m.fl.elevel, fl := { m.fl with trapped := true } })
  | none => (s.modMe fun m => { m with level := Level.ofNum m.fl.elevel }).goto s.me.fl.epc

/-- GRET: the jump to GLINK, the level of GLEVEL, and mask mode 00 at level K (11 R201, 22 R307). -/
def gateReturn (s : State) : State :=
  (s.modMe fun m => { m with
    level := m.glevel
    pd := m.pd && m.glevel != .k
    fd := m.fd && m.glevel != .k }).goto s.me.glink

/-- The stack of REDIRECT: every entry is discarded, s60 to s62 tell the stop, level K, execution at TRAPH (25 R353). -/
def Strand.redirect (m : Strand) (t : Trap) (kind : Nat) : Strand :=
  let vseq := if kind = 1 then m.vcp else 0
  let at_ := m.pc
  let m := { m with
    status := .ready
    queue := m.queue.filter fun q => match q with
      | .entry _ => false
      | .dropGroups _ _ | .dropSlots _ _ => true
    seqNext := m.vcp
    v := { m.v with vstart := 0, vdone := 0, fppend := false }
    level := .k
    pd := false
    fd := false
    pc := m.traph
    stopped := none }
  ((m.wr 60 (BitVec.ofNat 64 (t.cause.code + 256 * t.sub + 65536 * kind + vseq * 2 ^ 32))).wr 61 at_).wr 62
    (if t.cause == .trap then t.info else t.addr)

end Sys2Proof.Machine
end

