-- ==== Sys2Proof/Machine/Float.lean ====
section
/-! DEFINITION. The number formats as exact values, rounding and its flags, and the conversions (04_numbers R45 to R57).
Values are computed exactly as dyadic numbers and rounded once at the end; a sticky bit stands for the positive rest of a
quotient, a root or a power that no dyadic number equals. -/

namespace Sys2Proof.Machine

/-- The rounding modes of FCSR.RM (03 R41, 04 R52). -/
inductive RM where
  | rne | rtz | rdn | rup | rna
  deriving DecidableEq, Repr

/-- The mode of a code of FCSR.RM. MTC refuses 5 to 7 (03 R41); one that an edited context block brings in rounds to nearest even, which is
the model's choice (log entry 14). -/
def RM.ofCode : Nat → RM
  | 1 => .rtz | 2 => .rdn | 3 => .rup | 4 => .rna | _ => .rne

/-- The exact value of a float: not a number, an infinity, or ± m × 2^e. -/
inductive FVal where
  | nan
  | inf (neg : Bool)
  | fin (neg : Bool) (m : Nat) (e : Int)
  deriving DecidableEq, Repr

/-! The flags, as they stand in FCSR bits 7 to 3 (03 R41). -/
def flNV : Nat := 128
def flDZ : Nat := 64
def flOF : Nat := 32
def flUF : Nat := 16
def flNX : Nat := 8

/-- A result with its flags. -/
abbrev Res := Nat × Nat

/-- A format of the IEEE shape: exponent bits, fraction bits; E4M3 has no infinities (04 R47 R48). -/
structure Fmt where
  eb : Nat
  mb : Nat
  hasInf : Bool
  deriving DecidableEq, Repr

def fmtF32 : Fmt := ⟨8, 23, true⟩
def fmtF16 : Fmt := ⟨5, 10, true⟩
def fmtBF16 : Fmt := ⟨8, 7, true⟩
def fmtE4M3 : Fmt := ⟨4, 3, false⟩
def fmtE5M2 : Fmt := ⟨5, 2, true⟩

/-- The float format a tag names, for the tags of the IEEE shape. -/
def fmtOf : Tag → Option Fmt
  | .f32 => some fmtF32 | .f16 => some fmtF16 | .bf16 => some fmtBF16 | .e4m3 => some fmtE4M3 | .e5m2 => some fmtE5M2
  | .raw | .i8 | .i16 | .i32 | .n8 | .n16 | .n32 | .e2m1 | .e8m0 => none

def Fmt.bias (f : Fmt) : Nat := 2 ^ (f.eb - 1) - 1
def Fmt.width (f : Fmt) : Nat := 1 + f.eb + f.mb
/-- The exponent of the last place of the smallest normal and of every subnormal. -/
def Fmt.qmin (f : Fmt) : Int := 1 - (f.bias : Int) - f.mb
/-- The positive quiet NaN (R47 R48): 0x7FC0_0000, 0x7E00, 0x7FC0, 0x7E, and 0x7F for E4M3. -/
def Fmt.qnan (f : Fmt) : Nat := if f.hasInf then (2 ^ f.eb - 1) * 2 ^ f.mb + 2 ^ (f.mb - 1) else 0x7F
/-- The largest finite encoding, without its sign. -/
def Fmt.maxFin (f : Fmt) : Nat := if f.hasInf then (2 ^ f.eb - 1) * 2 ^ f.mb - 1 else 0x7E
def Fmt.signBit (f : Fmt) (neg : Bool) : Nat := if neg then 2 ^ (f.eb + f.mb) else 0
def Fmt.infBits (f : Fmt) (neg : Bool) : Nat := f.signBit neg + (2 ^ f.eb - 1) * 2 ^ f.mb

/-- The exact value an encoding stands for (R47 R48). -/
def Fmt.value (f : Fmt) (x : Nat) : FVal :=
  let neg := bitAt x (f.eb + f.mb)
  let ex := bitsOf x (f.eb + f.mb - 1) f.mb
  let fr := x % 2 ^ f.mb
  if ex = 0 then .fin neg fr f.qmin
  else if f.hasInf && ex == 2 ^ f.eb - 1 then (if fr = 0 then .inf neg else .nan)
  else if !f.hasInf && x % 128 == 0x7F then .nan
  else .fin neg (2 ^ f.mb + fr) (f.qmin + (ex - 1 : Nat))

/-- A signalling NaN of F32, F16 or BF16: its top fraction bit is 0 (R47). -/
def isSnan (t : Tag) (x : Nat) : Bool :=
  match t with
  | .f32 => bitsOf x 30 23 == 255 && x % 2 ^ 23 != 0 && !bitAt x 22
  | .f16 => bitsOf x 14 10 == 31 && x % 2 ^ 10 != 0 && !bitAt x 9
  | .bf16 => bitsOf x 14 7 == 255 && x % 2 ^ 7 != 0 && !bitAt x 6
  | .raw | .i8 | .i16 | .i32 | .n8 | .n16 | .n32 | .e4m3 | .e5m2 | .e2m1 | .e8m0 => false

/-- The magnitude m × 2^e, with a sticky rest, rounded to a multiple of 2^q: the multiple and whether it is inexact. A
sticky rest is only given with e < q. -/
def roundAt (rm : RM) (neg : Bool) (m : Nat) (e : Int) (sticky : Bool) (q : Int) : Nat × Bool :=
  if q ≤ e then (m * 2 ^ (e - q).toNat, sticky)
  else
    let d := (q - e).toNat
    let r := m / 2 ^ d
    let rest := m % 2 ^ d
    let half := 2 ^ (d - 1)
    let inexact := rest != 0 || sticky
    let up := match rm with
      | .rne => decide (half < rest) || (rest == half && (sticky || r % 2 == 1))
      | .rtz => false
      | .rdn => neg && inexact
      | .rup => !neg && inexact
      | .rna => decide (half ≤ rest)
    (if up then r + 1 else r, inexact)

/-- What a result too large delivers: an infinity or the largest finite value as the mode directs; E4M3 saturates in
every mode (R54). -/
def overflowBits (f : Fmt) (rm : RM) (neg : Bool) : Nat :=
  if !f.hasInf then f.signBit neg + f.maxFin else
  match rm with
  | .rne | .rna => f.infBits neg
  | .rtz => f.signBit neg + f.maxFin
  | .rdn => if neg then f.infBits true else f.maxFin
  | .rup => if neg then f.signBit true + f.maxFin else f.infBits false

/-- A non-zero magnitude rounded and encoded, with OF, UF and NX (R53): overflow and tininess are judged on the value
rounded with an unbounded exponent range. -/
def roundFin (f : Fmt) (rm : RM) (neg : Bool) (m : Nat) (e : Int) (sticky : Bool) : Res :=
  let p := f.mb + 1
  let q := e + ((Nat.log2 m + 1 : Nat) : Int) - p
  let (u, uInexact) := roundAt rm neg m e sticky q
  -- the value u × 2^q against the largest finite value
  let top : Nat := if f.hasInf then 2 ^ p - 1 else 2 ^ p - 2
  let qtop : Int := f.qmin + ((2 ^ f.eb - (if f.hasInf then 3 else 2) : Nat) : Int)
  let big := decide (qtop < q) || (q == qtop && decide (top < u))
  if big then (overflowBits f rm neg, flOF ||| flNX)
  else
    let q' := max q f.qmin
    let (r, inexact) := roundAt rm neg m e sticky q'
    let tiny := decide (q < f.qmin) && !(decide (q + 1 = f.qmin) && u == 2 ^ p)
    let enc : Nat :=
      if r < 2 ^ f.mb then r
      else if r = 2 ^ p then (q' + 1 - f.qmin + 1).toNat * 2 ^ f.mb
      else (q' - f.qmin + 1).toNat * 2 ^ f.mb + (r - 2 ^ f.mb)
    (f.signBit neg + enc, (if tiny && inexact then flUF else 0) ||| (if inexact || (uInexact && !tiny) then flNX else 0))

/-- An exact value rounded to a format (R52 R53 R54); a NaN gives the quiet NaN, and an infinity that the format lacks
gives NaN with NV. -/
def roundVal (f : Fmt) (rm : RM) : FVal → Res
  | .nan => (f.qnan, 0)
  | .inf neg => if f.hasInf then (f.infBits neg, 0) else (f.qnan, flNV)
  | .fin neg m e => if m = 0 then (f.signBit neg, 0) else roundFin f rm neg m e false

/-! Exact operations on values. -/

/-- The sign of an exact zero sum (12 R210): that of two equal zero signs, else + except under RDN. -/
def zeroSign (rm : RM) (a b : Bool) : Bool := if a == b then a else rm == .rdn

/-- The exact sum, with NV for ∞ − ∞. -/
def addVal (rm : RM) : FVal → FVal → FVal × Nat
  | .nan, _ => (.nan, 0)
  | _, .nan => (.nan, 0)
  | .inf a, .inf b => if a == b then (.inf a, 0) else (.nan, flNV)
  | .inf a, .fin _ _ _ => (.inf a, 0)
  | .fin _ _ _, .inf b => (.inf b, 0)
  | .fin a m e, .fin b n g =>
    if m = 0 ∧ n = 0 then (.fin (zeroSign rm a b) 0 e, 0)
    else
      let l := min e g
      let x : Int := (m * 2 ^ (e - l).toNat : Nat)
      let y : Int := (n * 2 ^ (g - l).toNat : Nat)
      let z := (if a then -x else x) + (if b then -y else y)
      if z = 0 then (.fin (rm == .rdn) 0 l, 0) else (.fin (decide (z < 0)) z.natAbs l, 0)

/-- The exact product, with NV for 0 × ∞. -/
def mulVal : FVal → FVal → FVal × Nat
  | .nan, _ => (.nan, 0)
  | _, .nan => (.nan, 0)
  | .inf a, .inf b => (.inf (a != b), 0)
  | .inf a, .fin b n _ => if n = 0 then (.nan, flNV) else (.inf (a != b), 0)
  | .fin a m _, .inf b => if m = 0 then (.nan, flNV) else (.inf (a != b), 0)
  | .fin a m e, .fin b n g => (.fin (a != b) (m * n) (e + g), 0)

def negVal : FVal → FVal
  | .nan => .nan
  | .inf a => .inf !a
  | .fin a m e => .fin (!a) m e

def absVal : FVal → FVal
  | .nan => .nan
  | .inf _ => .inf false
  | .fin _ m e => .fin false m e

/-- a < b on values that are not NaN; with `zeros`, −0 is below +0. -/
def ltVal (zeros : Bool) : FVal → FVal → Bool
  | .nan, _ => false
  | _, .nan => false
  | .inf a, .inf b => a && !b
  | .inf a, .fin _ _ _ => a
  | .fin _ _ _, .inf b => !b
  | .fin a m e, .fin b n g =>
    if m = 0 ∧ n = 0 then zeros && a && !b
    else
      let l := min e g
      let x : Int := (m * 2 ^ (e - l).toNat : Nat)
      let y : Int := (n * 2 ^ (g - l).toNat : Nat)
      decide ((if a then -x else x) < (if b then -y else y))

def eqVal (a b : FVal) : Bool := a != .nan && b != .nan && !ltVal false a b && !ltVal false b a

/-- The integer square root, one bit a step. -/
def isqrtBits (x : Nat) : Nat → Nat → Nat
  | 0, r => if (r + 1) * (r + 1) ≤ x then r + 1 else r
  | b + 1, r => isqrtBits x b (if (r + 2 ^ (b + 1)) * (r + 2 ^ (b + 1)) ≤ x then r + 2 ^ (b + 1) else r)

def isqrt (x : Nat) : Nat := isqrtBits x (Nat.log2 x / 2 + 1) 0

/-- x / y rounded once (12 R210): 0/0 and ∞/∞ are invalid, a finite non-zero value over zero divides by zero. -/
def divRound (f : Fmt) (rm : RM) : FVal → FVal → Res
  | .nan, _ => (f.qnan, 0)
  | _, .nan => (f.qnan, 0)
  | .inf _, .inf _ => (f.qnan, flNV)
  | .inf a, .fin b _ _ => (f.infBits (a != b), 0)
  | .fin a _ _, .inf b => (f.signBit (a != b), 0)
  | .fin a m e, .fin b n g =>
    if n = 0 then (if m = 0 then (f.qnan, flNV) else (f.infBits (a != b), flDZ))
    else if m = 0 then (f.signBit (a != b), 0)
    else
      let k := Nat.log2 n + 80
      let x := m * 2 ^ k
      roundFin f rm (a != b) (x / n) (e - g - k) (x % n != 0)

/-- √x rounded once (12 R220). -/
def sqrtRound (f : Fmt) (rm : RM) : FVal → Res
  | .nan => (f.qnan, 0)
  | .inf neg => if neg then (f.qnan, flNV) else (f.infBits false, 0)
  | .fin neg m e =>
    if m = 0 then (f.signBit neg, 0)
    else if neg then (f.qnan, flNV)
    else
      let (m, e) := if e % 2 = 0 then (m, e) else (2 * m, e - 1)
      let x := m * 2 ^ 160
      let r := isqrt x
      roundFin f rm false r (e / 2 - 80) (r * r != x)

/-- 1 / √x rounded once (12 R220): +0 gives +∞, −0 gives −∞, both with DZ. -/
def rsqrtRound (f : Fmt) (rm : RM) : FVal → Res
  | .nan => (f.qnan, 0)
  | .inf neg => if neg then (f.qnan, flNV) else (0, 0)
  | .fin neg m e =>
    if m = 0 then (f.infBits neg, flDZ)
    else if neg then (f.qnan, flNV)
    else
      let (m, e) := if e % 2 = 0 then (m, e) else (2 * m, e - 1)
      let x := 2 ^ 320 / m
      let r := isqrt x
      roundFin f rm false r (-(e / 2) - 160) (r * r * m != 2 ^ 320)

/-- ln 2 × 2^256, rounded down. -/
def ln2Fix : Nat := 80260960185991308862233904206310070533990667611589946606122867505419956976171

/-- The sum of t^k / k! with 256 fraction bits, every term rounded down; k counts down from the last term. -/
def expSeries (t : Nat) : Nat → Nat
  | 0 => 2 ^ 256
  | n + 1 => expSeries t n + ((List.range (n + 1)).foldl (fun acc k => acc * t / 2 ^ 256 / (k + 1)) (2 ^ 256))

/-- 2^x rounded once (12 R220). Between integers the power is irrational: it is formed with 256 fraction bits, of which
240 are used and the rest is sticky (log entry 17). -/
def exp2Round (f : Fmt) (rm : RM) : FVal → Res
  | .nan => (f.qnan, 0)
  | .inf neg => if neg then (0, 0) else (f.infBits false, 0)
  | .fin neg m e =>
    if m = 0 then roundFin f rm false 1 0 false
    else if decide (512 * 2 ^ (if e < 0 then (-e).toNat else 0) ≤ m * 2 ^ e.toNat) then
      -- beyond every exponent of a format: an overflow, or a value far below the smallest subnormal
      if neg then roundFin f rm false (2 ^ 100) (-2000) true else roundFin f rm false (2 ^ 100) 2000 true
    else
      let d := (if e < 0 then (-e).toNat else 0)
      let x : Int := if neg then -((m * 2 ^ e.toNat : Nat) : Int) else ((m * 2 ^ e.toNat : Nat) : Int)
      let n : Int := x / ((2 ^ d : Nat) : Int)
      let fr : Nat := (x % ((2 ^ d : Nat) : Int)).toNat
      if fr = 0 then roundFin f rm false 1 n false
      else
        let t := fr * ln2Fix / 2 ^ d
        roundFin f rm false (expSeries t 60 / 2 ^ 16) (n - 240) true

/-! Conversions (R54). -/

/-- The range of an integer tag: least, largest. -/
def intRange : Tag → Int × Int
  | .i8 => (-128, 127) | .i16 => (-32768, 32767) | .i32 => (-2147483648, 2147483647)
  | .n8 => (0, 255) | .n16 => (0, 65535) | .n32 => (0, 4294967295)
  | .raw | .f32 | .f16 | .bf16 | .e4m3 | .e5m2 | .e2m1 | .e8m0 => (0, 0)

def isInt : Tag → Bool
  | .i8 | .i16 | .i32 | .n8 | .n16 | .n32 => true
  | .raw | .f32 | .f16 | .bf16 | .e4m3 | .e5m2 | .e2m1 | .e8m0 => false

def isSigned : Tag → Bool
  | .i8 | .i16 | .i32 => true
  | .raw | .n8 | .n16 | .n32 | .f32 | .f16 | .bf16 | .e4m3 | .e5m2 | .e2m1 | .e8m0 => false

def isFloat3 : Tag → Bool
  | .f32 | .f16 | .bf16 => true
  | .raw | .i8 | .i16 | .i32 | .n8 | .n16 | .n32 | .e4m3 | .e5m2 | .e2m1 | .e8m0 => false

/-- The integer an element of an integer tag stands for. -/
def intVal (t : Tag) (x : Nat) : Int := if isSigned t then sx t.width x else ((x % 2 ^ t.width : Nat) : Int)

/-- An integer as an exact value. -/
def ofInt (x : Int) : FVal := .fin (decide (x < 0)) x.natAbs 0

/-- The exact value of an element of a tag other than E2M1 and RAW (R47 R48 R51). -/
def valueOf (t : Tag) (x : Nat) : FVal :=
  match fmtOf t with
  | some f => f.value x
  | none =>
    match t with
    | .e8m0 => if x % 256 = 255 then .nan else .fin false 1 ((x % 256 : Nat) - 127)
    | _ => ofInt (intVal t x)

/-- The value of an E2M1 element, with NV for a NaN scale (R49 R50). -/
def e2m1Value (code scale special : Nat) : FVal × Nat :=
  if scale = 255 then (.nan, flNV)
  else if code = 8 then
    match fmtE4M3.value special with
    | .nan => (.nan, 0)
    | .inf n => (.inf n, 0)
    | .fin n m e => (.fin n m (e + scale - 127), 0)
  else
    let mag : Nat := match code % 8 with
      | 0 => 0 | 1 => 1 | 2 => 2 | 3 => 3 | 4 => 4 | 5 => 6 | 6 => 8 | _ => 12
    (.fin (decide (8 ≤ code)) mag ((scale : Int) - 128), 0)

/-- A value to an integer tag: rounded by the mode, saturating with NV; NaN gives 0 with NV (R54). That a saturation raises NV alone, neither
OF nor NX, is the model's choice (log entry 80). -/
def toInt (t : Tag) (rm : RM) (v : FVal) : Res :=
  let (lo, hi) := intRange t
  match v with
  | .nan => (0, flNV)
  | .inf neg => (wrapInt t.width (if neg then lo else hi), flNV)
  | .fin neg m e =>
    let (r, inexact) := roundAt rm neg m e false 0
    let x : Int := if neg then -(r : Int) else r
    if x < lo then (wrapInt t.width lo, flNV)
    else if hi < x then (wrapInt t.width hi, flNV)
    else (wrapInt t.width x, if inexact then flNX else 0)

/-- A value to E8M0 (R54). -/
def toE8M0 (v : FVal) : Res :=
  match v with
  | .nan => (255, 0)
  | .inf _ => (255, flNV)
  | .fin neg m e =>
    let nv := if neg && m != 0 then flNV else 0
    if m = 0 then (0, flUF ||| flNX)
    else
      let l : Int := e + Nat.log2 m
      let pow := m == 2 ^ Nat.log2 m
      if l + 127 < 0 then (0, nv ||| flUF ||| flNX)
      else if 254 < l + 127 then (254, nv ||| flOF ||| flNX)
      else ((l + 127).toNat, nv ||| (if pow then 0 else flNX))

/-- The conversion of an exact value to a tag other than E2M1 and RAW (R54). -/
def convertVal (t : Tag) (rm : RM) (v : FVal) : Res :=
  match fmtOf t with
  | some f => roundVal f rm v
  | none =>
    match t with
    | .e8m0 => toE8M0 v
    | _ => toInt t rm v

/-- An integer to an integer tag saturates without a flag (R54). -/
def intToInt (t : Tag) (x : Int) : Nat :=
  let (lo, hi) := intRange t
  wrapInt t.width (max lo (min hi x))

/-- The conversion of an element from a tag to a tag, neither E2M1 nor RAW (R54): a signalling NaN raises NV (R47), and a
conversion to the source's own tag copies bits (12 R223). -/
def convertElem (src dst : Tag) (rm : RM) (x : Nat) : Res :=
  if src = dst then (x, 0)
  else if isInt src && isInt dst then (intToInt dst (intVal src x), 0)
  else
    let (r, fl) := convertVal dst rm (valueOf src x)
    (r, fl ||| (if isSnan src x then flNV else 0))

/-- A VI immediate in the format of a tag: extended, taken modulo 2^w, or rounded RNE without a flag (R63). -/
def immElem (t : Tag) (imm : BitVec 7) : Nat :=
  match fmtOf t with
  | some f => (roundVal f .rne (ofInt imm.toInt)).1
  | none => wrapInt t.width imm.toInt

end Sys2Proof.Machine
end

