-- ==== Sys2Proof/Machine/Flags.lean ====
section
/-! DEFINITION. The flag computations: FCSR's sticky flags and trap enables (03_state R41 R42, 22_privileged R307), and
every operation on float elements with the flags it raises (04_numbers R47 R53, 12_ref_vector R210 R212 R220 R221). -/

namespace Sys2Proof.Machine

/-- FCSR with flags ORed in (R42). -/
def orFlags (fcsr : Word) (fl : Nat) : Word := fcsr ||| BitVec.ofNat 64 (fl &&& 0xF8)

/-- The trap enables in force: TE of FCSR, unless FD of the mask mode is set (R307). -/
def enablesInForce (fcsr : Word) (fd : Bool) : Nat := if fd then 0 else bitsOf fcsr.toNat 12 8

/-- Raised flags meet an enable in force: the instruction raises FP (R42). -/
def trapsFp (fcsr : Word) (fd : Bool) (fl : Nat) : Bool := (enablesInForce fcsr fd &&& bitsOf fl 7 3) != 0

/-- The rounding mode of FCSR (R52). -/
def rmOf (fcsr : Word) : RM := RM.ofCode (fcsr.toNat % 8)

/-- NV for a signalling operand (R47). -/
def snanFlag (t : Tag) (x : Nat) : Nat := if isSnan t x then flNV else 0

/-- The format of an arithmetic tag; F32 stands in where none is named (the tag checks exclude that case). -/
def arithFmt (t : Tag) : Fmt := (fmtOf t).getD fmtF32

/-- VFADD (R210). -/
def faddElem (t : Tag) (rm : RM) (x y : Nat) : Res :=
  let f := arithFmt t
  let (v, a) := addVal rm (f.value x) (f.value y)
  let (r, b) := roundVal f rm v
  (r, a ||| b ||| snanFlag t x ||| snanFlag t y)

/-- VFSUB (R210). -/
def fsubElem (t : Tag) (rm : RM) (x y : Nat) : Res :=
  let f := arithFmt t
  let (v, a) := addVal rm (f.value x) (negVal (f.value y))
  let (r, b) := roundVal f rm v
  (r, a ||| b ||| snanFlag t x ||| snanFlag t y)

/-- VFMUL (R210). -/
def fmulElem (t : Tag) (rm : RM) (x y : Nat) : Res :=
  let f := arithFmt t
  let (v, a) := mulVal (f.value x) (f.value y)
  let (r, b) := roundVal f rm v
  (r, a ||| b ||| snanFlag t x ||| snanFlag t y)

/-- VFMA and, with `sub`, VFMS: one rounding, NV for 0 × ∞ whatever the addend (R210). -/
def fmaElem (t : Tag) (rm : RM) (sub : Bool) (x y d : Nat) : Res :=
  let f := arithFmt t
  let (p, a) := mulVal (f.value x) (f.value y)
  let c := if sub then negVal (f.value d) else f.value d
  let (v, b) := addVal rm p c
  let (r, g) := roundVal f rm v
  (r, a ||| b ||| g ||| snanFlag t x ||| snanFlag t y ||| snanFlag t d)

/-- VFDIV (R210). -/
def fdivElem (t : Tag) (rm : RM) (x y : Nat) : Res :=
  let f := arithFmt t
  let (r, a) := divRound f rm (f.value x) (f.value y)
  (r, a ||| snanFlag t x ||| snanFlag t y)

/-- VFMIN and, with `mx`, VFMAX: −0 is below +0, a NaN operand gives the quiet NaN (R210). -/
def fminmaxElem (t : Tag) (mx : Bool) (x y : Nat) : Res :=
  let f := arithFmt t
  let a := f.value x
  let b := f.value y
  let fl := snanFlag t x ||| snanFlag t y
  if a == .nan || b == .nan then (f.qnan, fl)
  else (if ltVal true a b != mx then x else y, fl)

/-- VFSEQ, VFSLT and VFSLE: false on NaN; the ordered tests raise NV for any NaN (R212). -/
def feqElem (t : Tag) (x y : Nat) : Bool × Nat :=
  let f := arithFmt t
  (eqVal (f.value x) (f.value y), snanFlag t x ||| snanFlag t y)

def fltElem (t : Tag) (x y : Nat) : Bool × Nat :=
  let f := arithFmt t
  let a := f.value x
  let b := f.value y
  if a == .nan || b == .nan then (false, flNV) else (ltVal false a b, 0)

def fleElem (t : Tag) (x y : Nat) : Bool × Nat :=
  let f := arithFmt t
  let a := f.value x
  let b := f.value y
  if a == .nan || b == .nan then (false, flNV) else (!ltVal false b a, 0)

/-- VFNEG and VFABS are exact; a NaN gives the quiet NaN (R220). -/
def fnegElem (t : Tag) (x : Nat) : Res :=
  let f := arithFmt t
  if f.value x == .nan then (f.qnan, snanFlag t x)
  else (if bitAt x (f.eb + f.mb) then x % 2 ^ (f.eb + f.mb) else x % 2 ^ (f.eb + f.mb) + 2 ^ (f.eb + f.mb), 0)

def fabsElem (t : Tag) (x : Nat) : Res :=
  let f := arithFmt t
  if f.value x == .nan then (f.qnan, snanFlag t x) else (x % 2 ^ (f.eb + f.mb), 0)

/-- VFSQRT, VFRCP, VFRSQ and VFEXP2 (R220). -/
def fsqrtElem (t : Tag) (rm : RM) (x : Nat) : Res :=
  let (r, a) := sqrtRound (arithFmt t) rm ((arithFmt t).value x)
  (r, a ||| snanFlag t x)

def frcpElem (t : Tag) (rm : RM) (x : Nat) : Res :=
  let (r, a) := divRound (arithFmt t) rm (.fin false 1 0) ((arithFmt t).value x)
  (r, a ||| snanFlag t x)

def frsqElem (t : Tag) (rm : RM) (x : Nat) : Res :=
  let (r, a) := rsqrtRound (arithFmt t) rm ((arithFmt t).value x)
  (r, a ||| snanFlag t x)

def fexp2Elem (t : Tag) (rm : RM) (x : Nat) : Res :=
  let (r, a) := exp2Round (arithFmt t) rm ((arithFmt t).value x)
  (r, a ||| snanFlag t x)

/-- VFCLASS (R221). -/
def fclassElem (t : Tag) (x : Nat) : Nat :=
  let f := arithFmt t
  match f.value x with
  | .nan => if isSnan t x then 256 else 512
  | .inf neg => if neg then 1 else 128
  | .fin neg m e =>
    if m = 0 then (if neg then 8 else 16)
    else if e = f.qmin ∧ m < 2 ^ f.mb then (if neg then 4 else 32)
    else (if neg then 2 else 64)

/-- The exact widening of an element to F32 at the head of reductions and of the error-feedback chain (R47 R56 R58). -/
def widenF32 (t : Tag) (x : Nat) : Res := convertElem t .f32 .rne x

end Sys2Proof.Machine
end

