-- ==== Sys2Proof/Machine/Operands.lean ====
section
/-! DEFINITION. The operand forms of the vector instructions: the register file an entry works on, the governed elements
(02_execution R16), the second operand in its VV, VS and VI forms (12_ref_vector R206, 04_numbers R62 R63), and which
scalars a word names (02 R9 R10, 03 R31). -/

namespace Sys2Proof.Machine

/-- The registers an entry reads and writes in the lanes; flags and the scalar result leave through it. -/
structure VFile where
  slots : Map Slot
  masks : Vector (BitVec 8192) 8
  efc : BitVec 32 := 0
  flags : Nat := 0
  out : Option Word := none
  deriving DecidableEq, Repr

/-- What an entry carries into the lanes: its length, first unfinished element, the element a pre-emption stops it at, capacity of its
lane groups in bits, window base, VIOTA width, rounding mode and captured scalars; `src` is the register it overwrites as it reads it, as
it was when the entry began, once the entry has been stopped inside (log entry 20). -/
structure Ctx where
  vl : Nat
  lo : Nat := 0
  hi : Nat := vl
  cap : Nat
  wb : Nat := 0
  iota : Nat := 32
  rm : RM := .rne
  x : Word := 0
  y : Word := 0
  z : Word := 0
  src : Option Slot := none
  deriving DecidableEq, Repr

/-- The slot a register field names (03 R32). -/
def Ctx.slot (c : Ctx) (r : VReg) : Nat := c.wb + r.toNat

def VFile.slot (f : VFile) (n : Nat) : Slot := Map.getD f.slots n {}
def VFile.putSlot (f : VFile) (n : Nat) (x : Slot) : VFile := { f with slots := Map.set f.slots n x }

/-- m0 reads as 8,192 ones (03 R36). -/
def VFile.mask (f : VFile) (m : MReg) : Nat :=
  if m = 0 then 2 ^ 8192 - 1 else (f.masks[m.toNat]'(by have := m.isLt; omega)).toNat

/-- Bits of a mask are written; a write to m0 is discarded (03 R36). -/
def VFile.setMaskBits (f : VFile) (m : MReg) (bits : List (Nat × Bool)) : VFile :=
  if m = 0 then f else
  let old := (f.masks[m.toNat]'(by have := m.isLt; omega)).toNat
  let new := bits.foldl (fun acc p => setElem acc 1 p.1 p.2.toNat) old
  { f with masks := f.masks.set m.toNat (BitVec.ofNat 8192 new) (by have := m.isLt; omega) }

/-- The governed elements from the first unfinished one up to a stop inside the entry, in ascending order (02 R16, 12 R207). -/
def Ctx.governed (c : Ctx) (f : VFile) (m : MReg) : List Nat :=
  let k := f.mask m
  (upto c.hi).filter fun i => decide (c.lo ≤ i) && k.testBit i

/-- Every governed element, for the entries that are never stopped inside (12 R207). -/
def Ctx.governedAll (c : Ctx) (f : VFile) (m : MReg) : List Nat :=
  let k := f.mask m
  (upto c.vl).filter fun i => k.testBit i

/-- Element e of width w of a slot (02 R22). -/
def Slot.elem (s : Slot) (w e : Nat) : Nat := elemAt s.bits.toNat w e

/-- The slot with elements written and its high-water mark raised (02 R22, 25 R349). -/
def Slot.write (s : Slot) (w : Nat) (es : List (Nat × Nat)) : Slot :=
  { s with
    bits := BitVec.ofNat 32768 (es.foldl (fun acc p => setElem acc w p.1 p.2) s.bits.toNat)
    hwm := es.foldl (fun h p => Nat.max h (p.1 * w / 2048 + 1)) s.hwm }

/-- The scale and special of block b of a slot (03 R35). -/
def Slot.block (s : Slot) (b : Nat) : Nat × Nat := (elemAt s.side.toNat 8 (2 * b), elemAt s.side.toNat 8 (2 * b + 1))

/-- The slot with block bytes written: (block, scale, special) (03 R35). -/
def Slot.writeBlocks (s : Slot) (bs : List (Nat × Nat × Nat)) : Slot :=
  { s with
    side := BitVec.ofNat 4096 (bs.foldl (fun acc p => setElem acc 16 p.1 (p.2.1 + 256 * p.2.2)) s.side.toNat)
    hwm := bs.foldl (fun h p => Nat.max h (p.1 / 16 + 1)) s.hwm }

/-- The second operand of element i at the width and tag of A (R206). -/
def Ctx.opb (c : Ctx) (f : VFile) (b : Src) (t : Tag) (w i : Nat) : Nat :=
  match b with
  | .v r => (f.slot (c.slot r)).elem w i
  | .s _ => c.x.toNat % 2 ^ w
  | .i imm => immElem t imm

/-- The tags of A and B agree, and a VI immediate has a format (R63 R64). -/
def Ctx.sameTag (c : Ctx) (f : VFile) (b : Src) (t : Tag) : Bool :=
  match b with
  | .v r => (f.slot (c.slot r)).tag == t
  | .s _ => true
  | .i _ => t != .raw && t != .e2m1 && t != .e8m0

/-- The length rule (02 R23). -/
def Ctx.fits (c : Ctx) (w : Nat) : Bool := decide (c.vl * w ≤ c.cap)

/-- Element results with their flags collected. -/
def collect (f : Nat → Res) : List Nat → List (Nat × Nat) × Nat
  | [] => ([], 0)
  | i :: is =>
    let (r, a) := f i
    let (es, b) := collect f is
    ((i, r) :: es, a ||| b)

/-! What a word names. -/

/-- A scalar register among the operands of VS form. -/
def srcScalars : Src → List SReg
  | .s r => [r]
  | .v _ | .i _ => []

/-- A vector register among the operands of VV form. -/
def srcVectors : Src → List VReg
  | .v r => [r]
  | .s _ | .i _ => []

/-- The scalar operands a vector or engine word captures at decode, in the order the entry keeps them (02 R9, 25 R348).
A reduction captures its start value (12 R224); the words of pairs capture both halves. -/
def captures : Instr → List SReg
  | .vadd _ _ _ b | .vsub _ _ _ b | .vmul _ _ _ b | .vmulh _ _ _ b | .vmulhn _ _ _ b | .vmacc _ _ _ b
  | .vmin _ _ _ b | .vmax _ _ _ b | .vminn _ _ _ b | .vmaxn _ _ _ b | .vand _ _ _ b | .vor _ _ _ b | .vxor _ _ _ b
  | .vshl _ _ _ b | .vshr _ _ _ b | .vsar _ _ _ b | .vadds _ _ _ b | .vsubs _ _ _ b
  | .vseq _ _ _ b | .vsne _ _ _ b | .vslt _ _ _ b | .vsle _ _ _ b | .vsltn _ _ _ b | .vslen _ _ _ b
  | .vfadd _ _ _ b | .vfsub _ _ _ b | .vfmul _ _ _ b | .vfma _ _ _ b | .vfms _ _ _ b | .vfdiv _ _ _ b
  | .vfmin _ _ _ b | .vfmax _ _ _ b | .vfseq _ _ _ b | .vfslt _ _ _ b | .vfsle _ _ _ b
  | .vmerge _ _ _ b | .vslideup _ _ _ b | .vslidedn _ _ _ b | .vxch _ _ _ b => srcScalars b
  | .vredsum _ d _ | .vredmax _ d _ | .vredmin _ d _ | .vredmaxn _ d _ | .vredminn _ d _
  | .vredfsum _ d _ | .vredfmax _ d _ | .vredfmin _ d _ => [d]
  | .vsplat _ _ a | .vins _ _ a => [a]
  | .vld _ _ a b _ _ | .vst _ _ a b _ => [a, b]
  | .vldx _ _ a _ _ | .vstx _ _ a _ | .vredm _ _ a _ _ => [a]
  | .vldb _ _ a _ _ => [a, pairReg' a]
  | .mrow _ _ b | .mrows _ _ _ b | .twrow _ _ b | .trcol _ _ b | .tset _ _ b => [b]
  | .mdrain _ a _ _ | .tlds _ a => [a]
  | .mzero a b | .tldm _ a b => [a, b]
  | .tcopy d a b => [d, a, b]
  | .sbind _ a _ _ => [a]
  | .happend a _ | .hsync a => [a]
  | .hloade _ a _ => [a, pairReg' a]
  | .hloadr _ a b => [a, b]
  | .vapp _ a _ | .vpropose _ a _ | .vwaitall _ a _ | .vwaitany _ a _ => [a]
  | .vtopk _ _ b => [b]
  | _ => []
where
  /-- The second register of a pair (03 R31). -/
  pairReg' (r : SReg) : SReg := r + 1

/-- The scalar register an entry writes when it completes (02 R13). -/
def laneWrites : Instr → List SReg
  | .vredsum _ d _ | .vredmax _ d _ | .vredmin _ d _ | .vredmaxn _ d _ | .vredminn _ d _
  | .vredfsum _ d _ | .vredfmax _ d _ | .vredfmin _ d _ | .vpopc _ d _ | .vfirst _ d _ | .vmovs _ d _ | .vapp d _ _ => [d]
  | _ => []

/-- The vector fields of a word and the implied next slots, as offsets from the window base (03 R32, 14 R256). -/
def vectorFields : Instr → List Nat
  | .vadd _ d a b | .vsub _ d a b | .vmul _ d a b | .vmulh _ d a b | .vmulhn _ d a b | .vmacc _ d a b
  | .vmin _ d a b | .vmax _ d a b | .vminn _ d a b | .vmaxn _ d a b | .vand _ d a b | .vor _ d a b | .vxor _ d a b
  | .vshl _ d a b | .vshr _ d a b | .vsar _ d a b | .vadds _ d a b | .vsubs _ d a b
  | .vfadd _ d a b | .vfsub _ d a b | .vfmul _ d a b | .vfma _ d a b | .vfms _ d a b | .vfdiv _ d a b
  | .vfmin _ d a b | .vfmax _ d a b | .vmerge _ d a b | .vslideup _ d a b | .vslidedn _ d a b | .vxch _ d a b =>
    d.toNat :: a.toNat :: (srcVectors b).map BitVec.toNat
  | .vseq _ _ a b | .vsne _ _ a b | .vslt _ _ a b | .vsle _ _ a b | .vsltn _ _ a b | .vslen _ _ a b
  | .vfseq _ _ a b | .vfslt _ _ a b | .vfsle _ _ a b => a.toNat :: (srcVectors b).map BitVec.toNat
  | .vperm _ d a b => [d.toNat, a.toNat, b.toNat]
  | .vmov _ d a | .vneg _ d a | .vabs _ d a | .vnot _ d a | .vclz _ d a | .vpopce _ d a
  | .vfneg _ d a | .vfabs _ d a | .vfsqrt _ d a | .vfrcp _ d a | .vfrsq _ d a | .vfexp2 _ d a | .vfclass _ d a =>
    [d.toNat, a.toNat]
  | .viota _ d => [d.toNat]
  | .vtag d a _ => [d.toNat, a.toNat]
  | .vcvt _ d a _ _ _ => [d.toNat, a.toNat]
  | .vredsum _ _ a | .vredmax _ _ a | .vredmin _ _ a | .vredmaxn _ _ a | .vredminn _ _ a
  | .vredfsum _ _ a | .vredfmax _ _ a | .vredfmin _ _ a | .vmovs _ _ a => [a.toNat]
  | .vsplat _ d _ | .vins _ d _ => [d.toNat]
  | .vld _ v _ _ _ _ | .vst _ v _ _ _ => [v.toNat]
  | .vldx _ v _ b _ | .vstx _ v _ b | .vldb _ v _ b _ | .vredm _ v _ b _ => [v.toNat, b.toNat]
  | .mrow _ a _ | .mrows _ _ a _ | .twrow _ a _ | .vtopk _ a _ => [a.toNat]
  | .mdrain d _ _ _ | .trcol d _ _ | .sbind d _ _ _ | .hloadr d _ _ => [d.toNat]
  | .happend _ b | .vapp _ _ b => [b.toNat]
  | .hloade d _ b => [d.toNat, d.toNat + 1, b.toNat]
  | .vpropose d _ b => [d.toNat, d.toNat + 1, b.toNat]
  | .vwaitall _ _ b | .vwaitany _ _ b => [b.toNat, b.toNat + 1]
  | _ => []

/-- The vector registers an entry reads as sources: a bound one pops under 08 R139. VTAG and VTOPK pop nothing. -/
def popSources : Instr → List VReg
  | .vadd _ _ a b | .vsub _ _ a b | .vmul _ _ a b | .vmulh _ _ a b | .vmulhn _ _ a b | .vmacc _ _ a b
  | .vmin _ _ a b | .vmax _ _ a b | .vminn _ _ a b | .vmaxn _ _ a b | .vand _ _ a b | .vor _ _ a b | .vxor _ _ a b
  | .vshl _ _ a b | .vshr _ _ a b | .vsar _ _ a b | .vadds _ _ a b | .vsubs _ _ a b
  | .vfadd _ _ a b | .vfsub _ _ a b | .vfmul _ _ a b | .vfma _ _ a b | .vfms _ _ a b | .vfdiv _ _ a b
  | .vfmin _ _ a b | .vfmax _ _ a b | .vmerge _ _ a b | .vslideup _ _ a b | .vslidedn _ _ a b | .vxch _ _ a b =>
    a :: srcVectors b
  | .vseq _ _ a b | .vsne _ _ a b | .vslt _ _ a b | .vsle _ _ a b | .vsltn _ _ a b | .vslen _ _ a b
  | .vfseq _ _ a b | .vfslt _ _ a b | .vfsle _ _ a b => a :: srcVectors b
  | .vperm _ _ a b => [a, b]
  | .vmov _ _ a | .vneg _ _ a | .vabs _ _ a | .vnot _ _ a | .vclz _ _ a | .vpopce _ _ a
  | .vfneg _ _ a | .vfabs _ _ a | .vfsqrt _ _ a | .vfrcp _ _ a | .vfrsq _ _ a | .vfexp2 _ _ a | .vfclass _ _ a => [a]
  | .vcvt _ _ a _ _ _ => [a]
  | .vredsum _ _ a | .vredmax _ _ a | .vredmin _ _ a | .vredmaxn _ _ a | .vredminn _ _ a
  | .vredfsum _ _ a | .vredfmax _ _ a | .vredfmin _ _ a | .vmovs _ _ a => [a]
  | .vst _ v _ _ _ => [v]
  | .vldx _ _ _ b _ | .vldb _ _ _ b _ => [b]
  | .vstx _ v _ b | .vredm _ v _ b _ => [v, b]
  | .mrow _ a _ | .mrows _ _ a _ | .twrow _ a _ => [a]
  | .happend _ b | .vapp _ _ b | .hloade _ _ b | .vpropose _ _ b => [b]
  | .vwaitall _ _ b | .vwaitany _ _ b => [b, b + 1]
  | _ => []

/-- The vector registers that must not be bound: destinations (03 R40), both fields of VTAG (12 R219), and the source of
VTOPK (14 R272). Offsets from the window base, implied next slots included. -/
def unboundFields : Instr → List Nat
  | .vadd _ d _ _ | .vsub _ d _ _ | .vmul _ d _ _ | .vmulh _ d _ _ | .vmulhn _ d _ _ | .vmacc _ d _ _
  | .vmin _ d _ _ | .vmax _ d _ _ | .vminn _ d _ _ | .vmaxn _ d _ _ | .vand _ d _ _ | .vor _ d _ _ | .vxor _ d _ _
  | .vshl _ d _ _ | .vshr _ d _ _ | .vsar _ d _ _ | .vadds _ d _ _ | .vsubs _ d _ _
  | .vfadd _ d _ _ | .vfsub _ d _ _ | .vfmul _ d _ _ | .vfma _ d _ _ | .vfms _ d _ _ | .vfdiv _ d _ _
  | .vfmin _ d _ _ | .vfmax _ d _ _ | .vmerge _ d _ _ | .vslideup _ d _ _ | .vslidedn _ d _ _ | .vxch _ d _ _ =>
    [d.toNat]
  | .vperm _ d _ _ => [d.toNat]
  | .vmov _ d _ | .vneg _ d _ | .vabs _ d _ | .vnot _ d _ | .vclz _ d _ | .vpopce _ d _
  | .vfneg _ d _ | .vfabs _ d _ | .vfsqrt _ d _ | .vfrcp _ d _ | .vfrsq _ d _ | .vfexp2 _ d _ | .vfclass _ d _ =>
    [d.toNat]
  | .viota _ d => [d.toNat]
  | .vtag d a _ => [d.toNat, a.toNat]
  | .vcvt _ d _ _ _ _ => [d.toNat]
  | .vsplat _ d _ | .vins _ d _ => [d.toNat]
  | .vld _ v _ _ _ _ | .vldx _ v _ _ _ | .vldb _ v _ _ _ => [v.toNat]
  | .mdrain d _ _ _ | .trcol d _ _ | .hloadr d _ _ => [d.toNat]
  | .hloade d _ _ | .vpropose d _ _ => [d.toNat, d.toNat + 1]
  | .vtopk _ a _ => [a.toNat]
  | _ => []

/-- The governing mask of a word; the VE group has none, as under m0 (02 R16, 10 R162). VMERGE reads its mask as a
select mask, so every element below vl is governed (12 R213). -/
def maskOf : Instr → MReg
  | .vadd m _ _ _ | .vsub m _ _ _ | .vmul m _ _ _ | .vmulh m _ _ _ | .vmulhn m _ _ _ | .vmacc m _ _ _
  | .vmin m _ _ _ | .vmax m _ _ _ | .vminn m _ _ _ | .vmaxn m _ _ _ | .vand m _ _ _ | .vor m _ _ _ | .vxor m _ _ _
  | .vshl m _ _ _ | .vshr m _ _ _ | .vsar m _ _ _ | .vadds m _ _ _ | .vsubs m _ _ _
  | .vseq m _ _ _ | .vsne m _ _ _ | .vslt m _ _ _ | .vsle m _ _ _ | .vsltn m _ _ _ | .vslen m _ _ _
  | .vfadd m _ _ _ | .vfsub m _ _ _ | .vfmul m _ _ _ | .vfma m _ _ _ | .vfms m _ _ _ | .vfdiv m _ _ _
  | .vfmin m _ _ _ | .vfmax m _ _ _ | .vfseq m _ _ _ | .vfslt m _ _ _ | .vfsle m _ _ _
  | .vslideup m _ _ _ | .vslidedn m _ _ _ | .vxch m _ _ _ | .vperm m _ _ _ => m
  | .vmov m _ _ | .vneg m _ _ | .vabs m _ _ | .vnot m _ _ | .vclz m _ _ | .vpopce m _ _
  | .vfneg m _ _ | .vfabs m _ _ | .vfsqrt m _ _ | .vfrcp m _ _ | .vfrsq m _ _ | .vfexp2 m _ _ | .vfclass m _ _ => m
  | .viota m _ => m
  | .vcvt m _ _ _ _ _ => m
  | .vredsum m _ _ | .vredmax m _ _ | .vredmin m _ _ | .vredmaxn m _ _ | .vredminn m _ _
  | .vredfsum m _ _ | .vredfmax m _ _ | .vredfmin m _ _ | .vmovs m _ _ => m
  | .vpopc m _ _ | .vfirst m _ _ => m
  | .vsplat m _ _ | .vins m _ _ => m
  | .vld m _ _ _ _ _ | .vst m _ _ _ _ => m
  | .vldx m _ _ _ _ | .vldb m _ _ _ _ | .vredm m _ _ _ _ => m
  | .vstx m _ _ _ => m
  | _ => 0

end Sys2Proof.Machine
end

