-- ==== Sys2Proof/Machine/VecArith.lean ====
section
/-! DEFINITION. What the lanes do with a vector arithmetic, mask or conversion word: `arith`, one arm a row of
12_ref_vector, and the algorithms of 04_numbers that its arms share (R55 R56 R58). A mortar program runs through the same
function (06_courses R94). -/

namespace Sys2Proof.Machine

/-! Shapes. -/

/-- The result of an entry that writes elements of one destination. -/
def VFile.result (f : VFile) (n : Nat) (t : Tag) (w : Nat) (es : List (Nat × Nat)) (fl : Nat) : VFile :=
  { f.putSlot n { (f.slot n).write w es with tag := t } with flags := f.flags ||| fl }

/-- The element-wise entries with two sources: tags, then the length rule, then the elements in ascending order (R206).
`op` gets the tag, x, y and the old d.e[i]. -/
def binary (c : Ctx) (f : VFile) (m : MReg) (d a : VReg) (b : Src) (ok : Tag → Bool) (readsD : Bool)
    (op : Tag → Nat → Nat → Nat → Res) : Except Cause VFile :=
  let sa := f.slot (c.slot a)
  let sd := f.slot (c.slot d)
  let t := sa.tag
  let w := t.width
  if !ok t || !c.sameTag f b t || (readsD && sd.tag != t) then .error .format
  else if !c.fits w then .error .vlRange
  else
    let (es, fl) := collect (fun i => op t (sa.elem w i) (c.opb f b t w i) (sd.elem w i)) (c.governed f m)
    .ok (f.result (c.slot d) t w es fl)

/-- An integer operation of R208. -/
def intBinary (c : Ctx) (f : VFile) (m : MReg) (d a : VReg) (b : Src) (readsD : Bool)
    (op : Tag → Nat → Nat → Nat → Nat) : Except Cause VFile :=
  binary c f m d a b isInt readsD fun t x y z => (op t x y z, 0)

/-- A float operation of R210. -/
def floatBinary (c : Ctx) (f : VFile) (m : MReg) (d a : VReg) (b : Src) (readsD : Bool)
    (op : Tag → Nat → Nat → Nat → Res) : Except Cause VFile := binary c f m d a b isFloat3 readsD op

/-- The bitwise entries of R209: with differing tags both are 32-bit elements and the result is RAW. -/
def bitwise (c : Ctx) (f : VFile) (m : MReg) (d a : VReg) (b : Src) (op : Nat → Nat → Nat) : Except Cause VFile :=
  let sa := f.slot (c.slot a)
  let t := match b with
    | .v r => if (f.slot (c.slot r)).tag = sa.tag then sa.tag else .raw
    | .s _ | .i _ => sa.tag
  let w := t.width
  let bad := match b with
    | .v r => (f.slot (c.slot r)).tag == .e2m1
    | .s _ => false
    | .i _ => !c.sameTag f b sa.tag
  if sa.tag = .e2m1 || bad then .error .format
  else if !c.fits w then .error .vlRange
  else .ok (f.result (c.slot d) t w ((c.governed f m).map fun i => (i, op (sa.elem w i) (c.opb f b t w i))) 0)

/-- A compare: bits of a mask, no tag (R211 R212). -/
def compare (c : Ctx) (f : VFile) (m d : MReg) (a : VReg) (b : Src) (ok : Tag → Bool)
    (test : Tag → Nat → Nat → Bool × Nat) : Except Cause VFile :=
  let sa := f.slot (c.slot a)
  let t := sa.tag
  let w := t.width
  if !ok t || !c.sameTag f b t then .error .format
  else if !c.fits w then .error .vlRange
  else
    let rs := (c.governed f m).map fun i => (i, test t (sa.elem w i) (c.opb f b t w i))
    let g := f.setMaskBits d (rs.map fun p => (p.1, p.2.1))
    .ok { g with flags := rs.foldl (fun acc p => acc ||| p.2.2) g.flags }

/-- An integer compare (R211). -/
def intCompare (c : Ctx) (f : VFile) (m d : MReg) (a : VReg) (b : Src) (test : Tag → Nat → Nat → Bool) :
    Except Cause VFile := compare c f m d a b isInt fun t x y => (test t x y, 0)

/-- Any tag but E2M1, for the entries that move whole elements (R213 to R216). -/
def notE2m1 (t : Tag) : Bool := t != .e2m1

/-- The entries that pick elements of A: `pick i` is the index read, or none for a zero; elements not listed keep their
bits (R214 R215 R216). -/
def permute (c : Ctx) (f : VFile) (m : MReg) (d a : VReg) (pick : Nat → Option (Option Nat)) : Except Cause VFile :=
  let sa := f.slot (c.slot a)
  let w := sa.tag.width
  if !notE2m1 sa.tag then .error .format
  else if !c.fits w then .error .vlRange
  else
    let es := (c.governedAll f m).filterMap fun i =>
      match pick i with
      | none => none
      | some none => some (i, 0)
      | some (some j) => some (i, sa.elem w j)
    .ok (f.result (c.slot d) sa.tag w es 0)

/-- The distance or offset of a slide or exchange (R214 R216). -/
def Ctx.count (c : Ctx) : Src → Nat
  | .s _ => c.x.toNat
  | .i imm => imm.toNat
  | .v _ => 0

/-- VMERGE (R213). -/
def merge (c : Ctx) (f : VFile) (m : MReg) (d a : VReg) (b : Src) : Except Cause VFile :=
  let sa := f.slot (c.slot a)
  let t := sa.tag
  let w := t.width
  let k := f.mask m
  if !notE2m1 t || !c.sameTag f b t then .error .format
  else if !c.fits w then .error .vlRange
  else
    let es := ((upto c.hi).filter fun i => decide (c.lo ≤ i)).map fun i =>
      (i, if k.testBit i then c.opb f b t w i else sa.elem w i)
    .ok (f.result (c.slot d) t w es 0)

/-- The element-wise unary entries (R217 R220). `rt` is the result tag, of the operand's width. -/
def unary (c : Ctx) (f : VFile) (m : MReg) (d a : VReg) (ok : Tag → Bool) (rt : Tag → Tag) (op : Tag → Nat → Res) :
    Except Cause VFile :=
  let sa := f.slot (c.slot a)
  let t := sa.tag
  let w := t.width
  if !ok t then .error .format
  else if !c.fits w then .error .vlRange
  else
    let (es, fl) := collect (fun i => op t (sa.elem w i)) (c.governed f m)
    .ok (f.result (c.slot d) (rt t) w es fl)

/-- Leading zeros of the low w bits (R182 R217). -/
def leadingZeros (w x : Nat) : Nat := if x % 2 ^ w = 0 then w else w - 1 - Nat.log2 (x % 2 ^ w)

/-- Set bits among the low w (R182 R217). -/
def popCount (w x : Nat) : Nat := (upto w).foldl (fun acc k => acc + (bitAt x k).toNat) 0

/-- VMOV: the sidecar bytes under governed E2M1 and RAW elements move with them (R217, 03 R35). -/
def moveVec (c : Ctx) (f : VFile) (m : MReg) (d a : VReg) : Except Cause VFile :=
  let sa := f.slot (c.slot a)
  match unary c f m d a (fun _ => true) id (fun _ x => (x, 0)) with
  | .error e => .error e
  | .ok g =>
    if sa.tag = .e2m1 || sa.tag = .raw then
      let blocks := ((c.governed f m).map fun i => i * sa.tag.width / 128).dedup
      .ok (g.putSlot (c.slot d) ((g.slot (c.slot d)).writeBlocks (blocks.map fun b => (b, sa.block b))))
    else .ok g

/-- VIOTA: how many governed elements stand below (R218). -/
def iota (c : Ctx) (f : VFile) (m : MReg) (d : VReg) : Except Cause VFile :=
  let t : Option Tag := match c.iota with
    | 8 => some .n8 | 16 => some .n16 | 32 => some .n32 | _ => none
  match t with
  | none => .error .format
  | some t =>
    if !c.fits t.width then .error .vlRange
    else .ok (f.result (c.slot d) t t.width ((c.governedAll f m).mapIdx fun n i => (i, n % 2 ^ t.width)) 0)

/-- VTAG: every held slice and the whole sidecar under a new tag (R219). -/
def retag (c : Ctx) (f : VFile) (d a : VReg) (t : Tag) : Except Cause VFile :=
  let sa := f.slot (c.slot a)
  .ok (f.putSlot (c.slot d) { sa with tag := t, hwm := Nat.max (f.slot (c.slot d)).hwm (c.cap / 2048) })

/-! Quantising to E2M1 and the error-feedback chain (04 R55 R56). -/

/-- The E2M1 magnitude code nearest |x| / 2^s, ties to the code whose bit 0 is 0 (R55 step 6). -/
def e2m1Mag (x : FVal) (s : Int) : Nat :=
  let a := absVal x
  let lt := fun q : Nat => ltVal false a (.fin false q (s - 2))
  let le := fun q : Nat => !ltVal false (.fin false q (s - 2)) a
  if le 1 then 0 else if lt 3 then 1 else if le 5 then 2 else if lt 7 then 3 else if le 10 then 4
  else if lt 14 then 5 else if le 20 then 6 else 7

/-- An exact value over a power of two. -/
def FVal.shift (v : FVal) (k : Int) : FVal :=
  match v with
  | .nan => .nan
  | .inf n => .inf n
  | .fin n m e => .fin n m (e + k)

def FVal.isNeg : FVal → Bool
  | .nan => false
  | .inf n => n
  | .fin n _ _ => n

def FVal.finite : FVal → Bool
  | .nan => false
  | .inf _ => false
  | .fin _ _ _ => true

/-- One block quantised: codes by index, scale, special and flags (R55). Each governed element comes as its index, value
and whether it is a signalling NaN. -/
def quantize (xs : List (Nat × FVal × Bool)) : List (Nat × Nat) × Nat × Nat × Nat :=
  if xs.any fun p => !p.2.1.finite then
    (xs.map fun p => (p.1, 0), 255, 0,
      if xs.any fun p => p.2.2 || (p.2.1 != .nan && !p.2.1.finite) then flNV else 0)
  else
    let amax := xs.foldl (fun acc p => if ltVal false acc (absVal p.2.1) then absVal p.2.1 else acc) (.fin false 0 0)
    match amax with
    | .fin _ m e =>
      if m = 0 then (xs.map fun p => (p.1, 0), 0, 0, 0)
      else
        let s : Int := max (-127) (min 127 (e + Nat.log2 m - 2))
        let top := (xs.find? fun p => eqVal (absVal p.2.1) amax).map Prod.fst
        let scale := (s + 127).toNat
        let special := match xs.find? fun p => some p.1 == top with
          | some p => (roundVal fmtE4M3 .rne (p.2.1.shift (-s))).1
          | none => 0
        let codes := xs.map fun p =>
          (p.1, if some p.1 == top then 8 else
            let k := e2m1Mag p.2.1 s
            if k ≠ 0 ∧ p.2.1.isNeg then k + 8 else k)
        let differs := (xs.zip codes).any fun q => !eqVal (e2m1Value q.2.2 scale special).1 q.1.2.1
        (codes, scale, special, if differs then flNX else 0)
    | .nan | .inf _ => ([], 0, 0, 0)

/-- Indexed governed values quantised block by block: codes, block bytes and flags (R55). -/
def quantizeAll (xs : List (Nat × FVal × Bool)) : List (Nat × Nat) × List (Nat × Nat × Nat) × Nat :=
  ((xs.map fun p => p.1 / 32).dedup).foldl
    (fun acc b =>
      let (codes, scale, special, fl) := quantize (xs.filter fun p => p.1 / 32 = b)
      (acc.1 ++ codes, acc.2.1 ++ [(b, scale, special)], acc.2.2 ||| fl))
    ([], [], 0)

/-- The governed elements that share a block with those in hand: all of them, unless the entry was stopped inside or is to stop
(R55, 25 R346). -/
def Ctx.blockMates (c : Ctx) (f : VFile) (m : MReg) (gov : List Nat) (dst : Nat → Nat) : List Nat :=
  if c.lo = 0 ∧ c.hi = c.vl then gov
  else (c.governedAll f m).filter fun i => gov.any fun j => dst i / 32 == dst j / 32

/-- The blocks of some values quantised whole, with the codes of those elements alone that are in hand (R55, 25 R346). -/
def quantizePart (mine : List Nat) (xs : List (Nat × FVal × Bool)) : List (Nat × Nat) × List (Nat × Nat × Nat) × Nat :=
  let (codes, blocks, fl) := quantizeAll xs
  (if mine.length = xs.length then codes else codes.filter fun q => mine.contains q.1, blocks, fl)

/-- One step of the error-feedback chain: the code, the new carry and the flags (R56). An integer source enters the sum
as its exact value, an E2M1 element as its F32 value (log entry 16). -/
def efStep (target : Tag) (x : FVal) (nv : Nat) (carry : Nat) : Nat × Nat × Nat :=
  let nv := nv ||| snanFlag .f32 carry
  let (sum, f1) := addVal .rne x (fmtF32.value carry)
  let (t, f2) := roundVal fmtF32 .rne sum
  let tv := fmtF32.value t
  let (q, f3) := convertVal target .rne tv
  let qv := valueOf target q
  if tv.finite && qv.finite then
    let (diff, _) := addVal .rne tv (negVal qv)
    let (c, f4) := roundVal fmtF32 .rne diff
    (q, c, nv ||| f1 ||| f2 ||| f3 ||| f4)
  else (q, 0, nv ||| f1 ||| f2 ||| f3)

/-- The chain over the governed elements, each given as destination index, value and flags of its widening (R56). -/
def efChain (target : Tag) : List (Nat × FVal × Nat) → Nat → List (Nat × Nat) × Nat × Nat
  | [], carry => ([], carry, 0)
  | (j, x, nv) :: rest, carry =>
    let (q, c, fl) := efStep target x nv carry
    let (es, last, fs) := efChain target rest c
    ((j, q) :: es, last, fl ||| fs)

/-- The exact value of element i of a source of any tag but RAW, with the flags of decoding it (R50 R47). -/
def Slot.exact (s : Slot) (i : Nat) : FVal × Nat :=
  if s.tag = .e2m1 then
    let (sc, sp) := s.block (i / 32)
    e2m1Value (s.elem 4 i) sc sp
  else
    let x := s.elem s.tag.width i
    (valueOf s.tag x, if isSnan s.tag x then flNV else 0)

/-- The F32 value at the head of the error-feedback chain (R56): an E2M1 element whose special lies beyond F32 becomes ±∞ with
its flags, as R54 decodes it; an integer keeps its exact value (log entry 16). -/
def Slot.widened (s : Slot) (i : Nat) : FVal × Nat :=
  let (v, a) := s.exact i
  if s.tag = .e2m1 then
    let (x, b) := roundVal fmtF32 .rne v
    (fmtF32.value x, a ||| b)
  else (v, a)

/-- One element converted (R54). -/
def Slot.convert (s : Slot) (t : Tag) (rm : RM) (i : Nat) : Res :=
  if s.tag = .e2m1 then
    let (v, a) := s.exact i
    let (r, b) := convertVal t rm v
    (r, a ||| b)
  else convertElem s.tag t rm (s.elem s.tag.width i)

/-- VCVT (R222 R223). One that converts a register in place and goes on after a stop reads the register as it was when the entry began
(R206). -/
def vconvert (c : Ctx) (f : VFile) (m : MReg) (d a : VReg) (t : Tag) (p : Nat) (ef : Bool) : Except Cause VFile :=
  let sa := c.src.getD (f.slot (c.slot a))
  let ws := sa.tag.width
  let wt := t.width
  let wide := Nat.max ws wt
  let ratio := wide / Nat.min ws wt
  let src := fun i => if ws < wt then p * c.vl + i else i
  let dst := fun i => if wt < ws then p * c.vl + i else i
  if sa.tag = .raw || (t = .e2m1 && !isFloat3 sa.tag) || decide (ratio ≤ p) then .error .format
  else if !c.fits wide then .error .vlRange
  else if (sa.tag = .e2m1 || t = .e2m1) && 0 < p && c.vl % 32 ≠ 0 then .error .vlRange
  else
    let gov := c.governed f m
    let n := c.slot d
    if t = .e2m1 then
      let (codes, blocks, fl) := quantizePart (gov.map dst) ((c.blockMates f m gov dst).map fun i =>
        let x := sa.elem ws (src i)
        (dst i, valueOf sa.tag x, isSnan sa.tag x))
      let g := f.result n t 4 codes fl
      .ok (g.putSlot n ((g.slot n).writeBlocks blocks))
    else if ef then
      let (es, last, fl) := efChain t (gov.map fun i => (dst i, sa.widened (src i))) f.efc.toNat
      .ok { f.result n t wt es fl with efc := BitVec.ofNat 32 last }
    else
      let (es, fl) := collect (fun i => sa.convert t c.rm (src i)) gov
      .ok (f.result n t wt (es.map fun q => (dst q.1, q.2)) fl)

/-! Reductions (04 R58, 12 R224 to R226). -/

/-- One level of the tree: neighbours meet, an absent position gives way. -/
def treeLevel (op : Nat → Nat → Res) : List (Option Nat) → List (Option Nat) × Nat
  | a :: b :: rest =>
    let (r, fl) := treeLevel op rest
    match a, b with
    | none, y => (y :: r, fl)
    | some x, none => (some x :: r, fl)
    | some x, some y =>
      let (z, g) := op x y
      (some z :: r, g ||| fl)
  | l => (l, 0)

/-- A block of 32 leaves folded to one position: five levels. -/
def treeFold (op : Nat → Nat → Res) (leaves : List (Option Nat)) : Option Nat × Nat :=
  let r := (upto 5).foldl (fun (acc : List (Option Nat) × Nat) _ =>
    let (l, g) := treeLevel op acc.1
    (l, acc.2 ||| g)) (leaves, 0)
  ((r.1.headD none), r.2)

/-- The fold of R58 over blocks of 32, from a start. -/
def blockFold (op : Nat → Nat → Res) (leaf : Nat → Option Nat) (start blocks : Nat) : Res :=
  (upto blocks).foldl (fun acc j =>
    let (r, g) := treeFold op ((upto 32).map fun p => leaf (32 * j + p))
    match r with
    | none => (acc.1, acc.2 ||| g)
    | some x =>
      let (z, h) := op acc.1 x
      (z, acc.2 ||| g ||| h)) (start, 0)

/-- A float reduction (R226). -/
def floatReduce (c : Ctx) (f : VFile) (m : MReg) (a : VReg) (op : Nat → Nat → Res) : Except Cause VFile :=
  let sa := f.slot (c.slot a)
  let w := sa.tag.width
  if !isFloat3 sa.tag then .error .format
  else if !c.fits w then .error .vlRange
  else
    let gov := c.governedAll f m
    let k := f.mask m
    let nv := gov.foldl (fun acc i => acc ||| (widenF32 sa.tag (sa.elem w i)).2) 0
    let (r, fl) := blockFold op (fun i => if i < c.vl && k.testBit i then some (widenF32 sa.tag (sa.elem w i)).1 else none)
      (c.x.toNat % 2 ^ 32) (ceilDiv c.vl 32)
    .ok { f with flags := f.flags ||| nv ||| fl, out := some (BitVec.ofNat 64 r) }

/-- An integer reduction over 64-bit values (R225). -/
def intReduce (c : Ctx) (f : VFile) (m : MReg) (a : VReg) (ext : Tag → Nat → Int) (op : Word → Word → Word) :
    Except Cause VFile :=
  let sa := f.slot (c.slot a)
  let w := sa.tag.width
  if !isInt sa.tag then .error .format
  else if !c.fits w then .error .vlRange
  else .ok { f with out := some ((c.governedAll f m).foldl
    (fun acc i => op acc (BitVec.ofInt 64 (ext sa.tag (sa.elem w i)))) c.x) }

/-- The extensions of R225. -/
def extKind (t : Tag) (x : Nat) : Int := intVal t x
def extSigned (t : Tag) (x : Nat) : Int := sx t.width x
def extZero (_ : Tag) (x : Nat) : Int := x

/-! Masks and moves (12 R227 to R230). -/

/-- VPOPC and VFIRST (R227). -/
def maskCount (c : Ctx) (f : VFile) (m a : MReg) : Except Cause VFile :=
  let k := f.mask a
  .ok { f with out := some (BitVec.ofNat 64 ((c.governedAll f m).filter fun i => k.testBit i).length) }

def maskFirst (c : Ctx) (f : VFile) (m a : MReg) : Except Cause VFile :=
  let k := f.mask a
  .ok { f with out := some (match (c.governedAll f m).find? fun i => k.testBit i with
    | some i => BitVec.ofNat 64 i
    | none => BitVec.allOnes 64) }

/-- The mask-logic entries (R228). -/
def maskLogic (c : Ctx) (f : VFile) (m d a b : MReg) (op : Bool → Bool → Bool) : Except Cause VFile :=
  let x := f.mask a
  let y := f.mask b
  .ok (f.setMaskBits d ((c.governedAll f m).map fun i => (i, op (x.testBit i) (y.testBit i))))

/-- VSPLAT and, with `one`, VINS (R229): D keeps its tag. -/
def spread (c : Ctx) (f : VFile) (m : MReg) (d : VReg) (one : Bool) : Except Cause VFile :=
  let t := (f.slot (c.slot d)).tag
  if t = .e2m1 then .error .format
  else if !c.fits t.width then .error .vlRange
  else
    let gov := if one then ((c.governedAll f m).take 1).filter fun i => decide (i < c.hi) else c.governed f m
    .ok (f.result (c.slot d) t t.width (gov.map fun i => (i, c.x.toNat % 2 ^ t.width)) 0)

/-- VMOVS (R230). -/
def lowest (c : Ctx) (f : VFile) (m : MReg) (a : VReg) : Except Cause VFile :=
  let sa := f.slot (c.slot a)
  let w := sa.tag.width
  if sa.tag = .e2m1 then .error .format
  else if !c.fits w then .error .vlRange
  else .ok { f with out := some (match (c.governedAll f m).head? with
    | none => 0
    | some i => BitVec.ofInt 64 (intVal sa.tag (sa.elem w i))) }

/-! The integer element operations of R208. -/

def saturate (t : Tag) (x : Int) : Nat :=
  let (lo, hi) := intRange t
  wrapInt t.width (max lo (min hi x))

def shiftCount (t : Tag) (y : Nat) : Nat := y % t.width

/-- The lanes' work for a word of 12_ref_vector. Words of other chapters leave the registers alone here. -/
def arith (c : Ctx) (i : Instr) (f : VFile) : Except Cause VFile :=
  match i with
  | .vadd m d a b => intBinary c f m d a b false fun _ x y _ => x + y
  | .vsub m d a b => intBinary c f m d a b false fun t x y _ => wrapInt t.width ((x : Int) - y)
  | .vmul m d a b => intBinary c f m d a b false fun _ x y _ => x * y
  | .vmulh m d a b => intBinary c f m d a b false fun t x y _ =>
      wrapInt t.width (sx t.width x * sx t.width y / ((2 ^ t.width : Nat) : Int))
  | .vmulhn m d a b => intBinary c f m d a b false fun t x y _ => x * y / 2 ^ t.width
  | .vmacc m d a b => intBinary c f m d a b true fun _ x y z => z + x * y
  | .vmin m d a b => intBinary c f m d a b false fun t x y _ => if sx t.width x ≤ sx t.width y then x else y
  | .vmax m d a b => intBinary c f m d a b false fun t x y _ => if sx t.width x ≤ sx t.width y then y else x
  | .vminn m d a b => intBinary c f m d a b false fun _ x y _ => Nat.min x y
  | .vmaxn m d a b => intBinary c f m d a b false fun _ x y _ => Nat.max x y
  | .vand m d a b => bitwise c f m d a b fun x y => x &&& y
  | .vor m d a b => bitwise c f m d a b fun x y => x ||| y
  | .vxor m d a b => bitwise c f m d a b fun x y => x ^^^ y
  | .vshl m d a b => intBinary c f m d a b false fun t x y _ => x * 2 ^ shiftCount t y
  | .vshr m d a b => intBinary c f m d a b false fun t x y _ => x / 2 ^ shiftCount t y
  | .vsar m d a b => intBinary c f m d a b false fun t x y _ =>
      wrapInt t.width (sx t.width x / ((2 ^ shiftCount t y : Nat) : Int))
  | .vadds m d a b => intBinary c f m d a b false fun t x y _ => saturate t (intVal t x + intVal t y)
  | .vsubs m d a b => intBinary c f m d a b false fun t x y _ => saturate t (intVal t x - intVal t y)
  | .vseq m d a b => intCompare c f m d a b fun _ x y => x == y
  | .vsne m d a b => intCompare c f m d a b fun _ x y => x != y
  | .vslt m d a b => intCompare c f m d a b fun t x y => decide (sx t.width x < sx t.width y)
  | .vsle m d a b => intCompare c f m d a b fun t x y => decide (sx t.width x ≤ sx t.width y)
  | .vsltn m d a b => intCompare c f m d a b fun _ x y => decide (x < y)
  | .vslen m d a b => intCompare c f m d a b fun _ x y => decide (x ≤ y)
  | .vfadd m d a b => floatBinary c f m d a b false fun t x y _ => faddElem t c.rm x y
  | .vfsub m d a b => floatBinary c f m d a b false fun t x y _ => fsubElem t c.rm x y
  | .vfmul m d a b => floatBinary c f m d a b false fun t x y _ => fmulElem t c.rm x y
  | .vfma m d a b => floatBinary c f m d a b true fun t x y z => fmaElem t c.rm false x y z
  | .vfms m d a b => floatBinary c f m d a b true fun t x y z => fmaElem t c.rm true x y z
  | .vfdiv m d a b => floatBinary c f m d a b false fun t x y _ => fdivElem t c.rm x y
  | .vfmin m d a b => floatBinary c f m d a b false fun t x y _ => fminmaxElem t false x y
  | .vfmax m d a b => floatBinary c f m d a b false fun t x y _ => fminmaxElem t true x y
  | .vfseq m d a b => compare c f m d a b isFloat3 feqElem
  | .vfslt m d a b => compare c f m d a b isFloat3 fltElem
  | .vfsle m d a b => compare c f m d a b isFloat3 fleElem
  | .vmerge m d a b => merge c f m d a b
  | .vslideup m d a b => permute c f m d a fun i => if c.count b ≤ i then some (some (i - c.count b)) else none
  | .vslidedn m d a b => permute c f m d a fun i => some (if i + c.count b < c.vl then some (i + c.count b) else none)
  | .vperm m d a b =>
    let t := (f.slot (c.slot a)).tag
    let sb := f.slot (c.slot b)
    if !(isInt sb.tag && sb.tag.width == t.width) then .error .format
    else permute c f m d a fun i => some (if sb.elem t.width i < c.vl then some (sb.elem t.width i) else none)
  | .vxch m d a b =>
    if notE2m1 (f.slot (c.slot a)).tag && !([1, 2, 4, 8, 16, 32].contains (c.count b)) then .error .vlRange
    else permute c f m d a fun i => some (if i ^^^ c.count b < c.vl then some (i ^^^ c.count b) else none)
  | .vmov m d a => moveVec c f m d a
  | .vneg m d a => unary c f m d a isInt id fun t x => (wrapInt t.width (-(x : Int)), 0)
  | .vabs m d a => unary c f m d a isInt id fun t x =>
      (if isSigned t then wrapInt t.width (sx t.width x).natAbs else x, 0)
  | .vnot m d a => unary c f m d a notE2m1 id fun t x => (2 ^ t.width - 1 - x, 0)
  | .vclz m d a => unary c f m d a isInt id fun t x => (leadingZeros t.width x, 0)
  | .vpopce m d a => unary c f m d a isInt id fun t x => (popCount t.width x, 0)
  | .viota m d => iota c f m d
  | .vtag d a t => retag c f d a t
  | .vfneg m d a => unary c f m d a isFloat3 id fnegElem
  | .vfabs m d a => unary c f m d a isFloat3 id fabsElem
  | .vfsqrt m d a => unary c f m d a isFloat3 id fun t x => fsqrtElem t c.rm x
  | .vfrcp m d a => unary c f m d a isFloat3 id fun t x => frcpElem t c.rm x
  | .vfrsq m d a => unary c f m d a isFloat3 id fun t x => frsqElem t c.rm x
  | .vfexp2 m d a => unary c f m d a isFloat3 id fun t x => fexp2Elem t c.rm x
  | .vfclass m d a => unary c f m d a isFloat3 (fun t => if t = .f32 then .n32 else .n16) fun t x => (fclassElem t x, 0)
  | .vcvt m d a t p e => vconvert c f m d a t p.toNat e
  | .vredsum m _ a => intReduce c f m a extKind fun x y => x + y
  | .vredmax m _ a => intReduce c f m a extSigned fun x y => if x.slt y then y else x
  | .vredmin m _ a => intReduce c f m a extSigned fun x y => if y.slt x then y else x
  | .vredmaxn m _ a => intReduce c f m a extZero fun x y => if x < y then y else x
  | .vredminn m _ a => intReduce c f m a extZero fun x y => if y < x then y else x
  | .vredfsum m _ a => floatReduce c f m a (faddElem .f32 .rne)
  | .vredfmax m _ a => floatReduce c f m a (fminmaxElem .f32 true)
  | .vredfmin m _ a => floatReduce c f m a (fminmaxElem .f32 false)
  | .vpopc m _ a => maskCount c f m a
  | .vfirst m _ a => maskFirst c f m a
  | .mand m d a b => maskLogic c f m d a b fun x y => x && y
  | .mor m d a b => maskLogic c f m d a b fun x y => x || y
  | .mxor m d a b => maskLogic c f m d a b fun x y => x != y
  | .mandn m d a b => maskLogic c f m d a b fun x y => x && !y
  | .mnot m d a => maskLogic c f m d a a fun x _ => !x
  | .mset m d => maskLogic c f m d 0 0 fun _ _ => true
  | .mclr m d => maskLogic c f m d 0 0 fun _ _ => false
  | .mmov m d a => maskLogic c f m d a a fun x _ => x
  | .vsplat m d _ => spread c f m d false
  | .vins m d _ => spread c f m d true
  | .vmovs m _ a => lowest c f m a
  | _ => .ok f

end Sys2Proof.Machine
end

