-- ==== Sys2Proof/Machine/Pop.lean ====
section
/-! DEFINITION. The frame of an entry in the lanes: the registers it works on, the element order, and the stream slots it
pops (03 R40, 08 R137 to R140). -/

namespace Sys2Proof.Machine

/-- How the execution of an entry ends: complete, with the flags it raised; waiting; or faulted at VCP with the state
that keeps what was done. -/
inductive Lane where
  | done (s : State) (flags : Nat := 0)
  | wait (s : State)
  | fault (t : Trap) (s : State)
  deriving DecidableEq, Repr

/-- The context of an entry of the strand whose turn it is (02 R9 R23). -/
def ctxFor (s : State) (e : Entry) : Ctx :=
  { vl := e.vl, lo := s.me.v.vstart, hi := (e.upTo.map (Nat.min e.vl)).getD e.vl, cap := e.lg * 2048, wb := e.wb, iota := widthOf e.vw, rm := rmOf s.me.fcsr,
    x := e.x, y := e.y, z := e.z, src := e.src }

/-- An entry that no pre-emption stops inside, all of its elements. -/
def Entry.whole (e : Entry) : Entry := { e with upTo := none, only := none }

/-- The register file of the strand. -/
def fileOf (s : State) : VFile := { slots := s.me.v.slots, masks := s.me.v.masks, efc := s.me.efc }

/-- The registers, masks and EFC go back to the strand. -/
def putFile (s : State) (f : VFile) : State :=
  s.modMe fun t => { t with efc := f.efc, v := { t.v with slots := f.slots, masks := f.masks } }

/-- A slot of the strand whose turn it is. -/
def State.slot (s : State) (n : Nat) : Slot := s.me.v.slot n

def State.putSlot (s : State) (n : Nat) (x : Slot) : State :=
  s.modMe fun t => { t with v := { t.v with slots := Map.set t.v.slots n x } }

/-- The oldest entry of the queue is replaced by itself with new captured data. -/
def State.setHead (s : State) (e : Entry) : State :=
  s.modMe fun t => { t with queue := match t.queue with
    | .entry _ :: rest => .entry e :: rest
    | q => q }

/-- The oldest entry of the queue changes what it keeps. -/
def State.modHead (s : State) (f : Entry → Entry) : State :=
  s.modMe fun t => { t with queue := match t.queue with
    | .entry q :: rest => .entry (f q) :: rest
    | q => q }

/-- The register that an entry reads while it writes elements of another width into it: as it was when the entry began (12 R206). -/
def Ctx.source (c : Ctx) (s : State) (r : VReg) : Slot := c.src.getD (s.slot (c.slot r))

/-- The entry at VCP keeps the register that it overwrites as it reads it, until it completes (12 R206; log entry 20). -/
def keepSource (overwritten : Bool) (x : Slot) (s : State) : State :=
  if overwritten then s.modHead fun q => { q with src := some x } else s

/-- The identity of a strand that survives a change of place: gang × 32 + SIDX. -/
def Strand.sid (t : Strand) : Nat := t.id.gang * 32 + t.id.sidx

/-! Stream slots. -/

/-- The stream slot that binds a register slot (R40). -/
def VecState.boundBy (v : VecState) (n : Nat) : Option Nat :=
  (upto 4).find? fun q => let x := v.streams[q]?.getD {}
    x.bound && x.slot == n

def VecState.stream (v : VecState) (q : Nat) : StreamSlot := v.streams[q]?.getD {}

def VecState.setStream (v : VecState) (q : Nat) (x : StreamSlot) : VecState :=
  { v with streams := v.streams.setIfInBounds q x }

/-- The positions of a pattern: E1 × E2 × E3 (R137). -/
def StreamSlot.total (q : StreamSlot) : Nat := q.extents.foldl (fun a b => a * b) 1

/-- The address of a position (R137). -/
def StreamSlot.addr (q : StreamSlot) (p : Nat) : Word :=
  let e1 := (q.extents[0]?).getD 1
  let e2 := (q.extents[1]?).getD 1
  let st := fun k => (q.strides[k]?).getD 0
  q.base + BitVec.ofInt 64 ((p % e1 : Nat) * st 0 + (p / e1 % e2 : Nat) * st 1 + (p / (e1 * e2) : Nat) * st 2)

/-- The fault a refill holds. -/
def Refill.trap : Refill → Option Trap
  | .elem _ => none
  | .held t => some t

/-- One more position of a slot is refilled by the copy engine: generic as SI, scratchpad at its banks (R140). -/
def refillOne (s : State) (q : Nat) : State :=
  let x := s.me.v.stream q
  let p := x.pos + x.ahead.length
  let n := x.tag.width / 8
  if !x.bound || x.total ≤ p || 8192 ≤ x.ahead.length * n then s else
  let a := x.addr p
  let ag := s.agent
  let s := touch s ag a
  let (s, r) := match check s ag .vload a n n with
    | .error t => (s, Refill.held t)
    | .ok pl =>
      let (s, bs) := readAt s ag .si pl.loc n
      (s, Refill.elem (natOfBytes bs))
  s.modMe fun t => { t with v := t.v.setStream q { x with ahead := x.ahead ++ [r] } }

/-- Refills until n positions stand ahead, as far as the pattern goes. -/
def refillTo (q n : Nat) : Nat → State → State
  | 0, s => s
  | k + 1, s => if n ≤ (s.me.v.stream q).ahead.length then s else refillTo q n k (refillOne s q)

/-- The bound slots an entry pops, each once (R139). -/
def popSlots (v : VecState) (e : Entry) : List Nat :=
  unionList [] ((popSources e.instr).filterMap fun r => v.boundBy (e.wb + r.toNat))

/-- The stream faults of an entry, before anything else: a bound register that must not be, or too few positions. -/
def bindingTrap (v : VecState) (e : Entry) : Option Trap :=
  if (unboundFields e.instr).any fun f => (v.boundBy (e.wb + f)).isSome then some { cause := .stream }
  else if (popSlots v e).any fun q => let x := v.stream q
      decide (x.total < x.pos + e.vl) then some { cause := .stream }
  else none

/-- The elements the entry still has to compute: governed, from VSTART up, not marked in VDONE, and of the issue in hand (02
R16, 03 R44). -/
def pendingOf (s : State) (e : Entry) : List Nat :=
  ((ctxFor s e).governed (fileOf s) (maskOf e.instr)).filter fun i =>
    !s.me.v.vdone.toNat.testBit i && (e.only.all fun l => l.contains i)

/-- The register after a pop: its elements 0 to n − 1, a free value where the read had failed (R139 R140, 14 R266). -/
def poppedSlot (drawn w : Nat) (old : Slot) (t : Tag) (taken : List Refill) : Slot :=
  { old.write w (taken.mapIdx fun i r => match r with
      | .elem b => (i, b)
      | .held _ => (i, Config.freeValue (drawn + i))) with tag := t }

/-- One slot popped: the register holds the elements and the read position moves on (R139). -/
def popOne (s : State) (n q : Nat) : State :=
  let x := s.me.v.stream q
  let taken := x.ahead.take n
  let s := s.putSlot x.slot (poppedSlot s.drawn x.tag.width (s.slot x.slot) x.tag taken)
  let s := s.modMe fun t => { t with v := t.v.setStream q { x with pos := x.pos + n, ahead := x.ahead.drop n } }
  if taken.all fun r => r.trap.isNone then s
  else { s with drawn := s.drawn + n }

/-- The held fault of the lowest element an entry needs, over its bound sources in operand order (R140). -/
def heldTrap (v : VecState) (qs needed : List Nat) : Option Trap :=
  needed.findSome? fun i => qs.findSome? fun q => (v.stream q).ahead[i]?.bind Refill.trap

/-- What an entry's pops give: not refilled yet, or the state before and after and the fault held for it. -/
inductive Popped where
  | wait (s : State)
  | ready (before after : State) (held : Option Trap)
  deriving DecidableEq, Repr

/-- The positions an entry waits for: no more than its lane groups hold, since a longer one faults (R139, 02 R23). -/
def popNeed (v : VecState) (e : Entry) (q : Nat) : Nat := Nat.min e.vl (e.lg * 2048 / (v.stream q).tag.width)

/-- The pops of an entry (R139): positions are refilled on demand unless refills are left to the agenda (log entry 3). -/
def popAll (s : State) (e : Entry) : Popped :=
  let qs := popSlots s.me.v e
  let s := if s.later then s else qs.foldl (fun s q => refillTo q (popNeed s.me.v e q) e.vl s) s
  if qs.any fun q => decide ((s.me.v.stream q).ahead.length < popNeed s.me.v e q) then .wait s
  else .ready s (qs.foldl (fun s q => popOne s e.vl q) s) (heldTrap s.me.v qs (pendingOf s e))

/-- An entry that did not complete has popped nothing: its positions and bound registers are as before. -/
def unpop (before s : State) (e : Entry) : State :=
  let qs := popSlots before.me.v e
  if qs.isEmpty then s else
  let s := s.modMe fun t => { t with v := { t.v with streams := before.me.v.streams } }
  qs.foldl (fun s q => let n := (before.me.v.stream q).slot
    s.putSlot n (before.slot n)) s

/-- An outcome with the pops of an incomplete entry taken back. -/
def Lane.unpop (before : State) (e : Entry) : Lane → Lane
  | .done s fl => .done s fl
  | .wait s => .wait (Machine.unpop before s e)
  | .fault t s => .fault t (Machine.unpop before s e)

end Sys2Proof.Machine
end

