-- ==== Sys2Proof/Machine/VecMem.lean ====
section
/-! DEFINITION. The vector loads and stores, the gathers and scatters with their partial completion, and reductions at
memory (13_ref_memory R231 to R240, 05_memory_spaces R77 to R79). -/

namespace Sys2Proof.Machine

/-- The checks before memory: a cause, then a fault held for the pops (12 R206, 14 R256, 08 R140). -/
def guardLane (bad : Option Cause) (held : Option Trap) (s : State) (k : State → Lane) : Lane :=
  match bad with
  | some c => .fault { cause := c } s
  | none =>
    match held with
    | some t => .fault t s
    | none => k s

/-- Tags, then lengths (04 R64). -/
def tagsThenLengths (tags lengths : Bool) : Option Cause :=
  if !tags then some .format else if !lengths then some .vlRange else none

/-- The tags an offset, index or expected register may carry (04 R64). -/
def isOffset (t : Tag) : Bool := t == .i32 || t == .n32 || t == .raw

/-! Vector stores and reductions on their way (02 R11, 05 R78, 15 R275). -/

/-- What a reduction leaves at its location (R79 R240). -/
def redApply (o : RedOp) (t : Tag) (old x : Nat) : Nat :=
  let w := t.width
  match o with
  | .add => (old + x) % 2 ^ w
  | .fadd => (faddElem .f32 .rne old x).1
  | .max => if sx w old < sx w x then x else old
  | .min => if sx w x < sx w old then x else old
  | .maxn => Nat.max old x
  | .minn => Nat.min old x
  | .and => old &&& x
  | .or => old ||| x

/-- n bytes at a place and m bytes at another have one in common. -/
def Loc.meets (k : Loc) (n : Nat) (l : Loc) (m : Nat) : Bool :=
  match k, l with
  | .gen a _ _, .gen b _ _ => decide (a < b + m) && decide (b < a + n)
  | .spad g c a, .spad h d b => g == h && c == d && decide (a < b + m) && decide (b < a + n)
  | _, _ => false

/-- The agent of what a core has sent to memory. -/
def sentAgent (core gang : Nat) : Agent :=
  { part := 0, level := .k, core := some core, die := dieOfCore core, gang := gang }

/-- One nibble of a byte written; its neighbour is untouched (R237). -/
def writeNibble (s : State) (ag : Agent) (rt : ReqType) (l : Loc) (odd : Bool) (x : Nat) : State :=
  updateAt s ag rt l 1 fun old => if odd then old % 16 + 16 * x else old / 16 * 16 + x

/-- An element of a vector store or of a reduction at memory is performed by an agent (R79 R237 R240). -/
def performElement (ag : Agent) (s : State) (v : VecStore) : State :=
  match v.red, v.nibble with
  | some (o, t), _ => updateAt s ag v.rt v.loc (t.width / 8) fun old => redApply o t old (natOfBytes v.data)
  | none, none => writeAt s ag v.rt v.loc v.data
  | none, some odd => writeNibble s ag v.rt v.loc odd (natOfBytes v.data)

/-- A waiting vector store of a core is performed. -/
def performStore (core : Nat) (s : State) (v : VecStore) : State := performElement (sentAgent core v.gang) s v

/-- Waiting vector stores of a core are performed, in order. -/
def drainStores (core : Nat) (pick : VecStore → Bool) (s : State) : State :=
  if !(s.core core).stores.any pick then s else
  ((s.core core).stores.filter pick).foldl (performStore core)
    (s.modCore core fun x => { x with stores := x.stores.filter fun v => !pick v })

/-- The stores of a strand, newest first, that an access to some bytes follows, and the others: those that name one of the
bytes, and the earlier ones that meet these (15 R275). -/
def splitStores (sid : Nat) : List (Loc × Nat) → List VecStore → List VecStore × List VecStore
  | _, [] => ([], [])
  | need, v :: rest =>
    if v.strand == sid && need.any fun p => p.1.meets p.2 v.loc v.data.length then
      let (a, b) := splitStores sid ((v.loc, v.data.length) :: need) rest
      (v :: a, b)
    else
      let (a, b) := splitStores sid need rest
      (a, v :: b)

/-- The strand's vector stores that an access to some bytes follows are performed (15 R275 R276). -/
def followStores (need : List (Loc × Nat)) (s : State) : State :=
  match splitStores s.me.sid need (s.core s.myCore).stores.reverse with
  | ([], _) => s
  | (due, rest) =>
    due.reverse.foldl (performStore s.myCore) (s.modCore s.myCore fun x => { x with stores := rest.reverse })

/-- A bank unit applies one reduction message (05 R78). -/
def landMessage (core : Nat) (s : State) (r : RedMsg) : State :=
  updateAt s (sentAgent core r.gang) .wt (.spad r.gang core r.off) r.size fun old => redApply r.op r.tag old r.value

/-- The messages of one core, newest first, up to the last one that is picked, and the others (05 R78). -/
def splitMessages (src : Nat) (pick : RedMsg → Bool) : Bool → List RedMsg → List RedMsg × List RedMsg
  | _, [] => ([], [])
  | on, r :: rest =>
    if r.src == src && (on || pick r) then
      let (a, b) := splitMessages src pick true rest
      (r :: a, b)
    else
      let (a, b) := splitMessages src pick on rest
      (a, r :: b)

/-- The messages of core `src` up to the last one that is picked are applied at a core, in the order they were issued. -/
def landMessages (src : Nat) (pick : RedMsg → Bool) (core : Nat) (s : State) : State :=
  match splitMessages src pick false (s.core core).redMsgs.reverse with
  | ([], _) => s
  | (due, rest) => due.reverse.foldl (landMessage core) (s.modCore core fun x => { x with redMsgs := rest.reverse })

/-- Every reduction message on its way to a core is applied. -/
def drainMessages (core : Nat) (s : State) : State :=
  (s.core core).redMsgs.foldl (landMessage core) (s.modCore core fun x => { x with redMsgs := [] })

/-- The strand's reductions at peers that an access to some bytes follows are applied (15 R275 R276, 05 R78). -/
def followMessages (need : List (Loc × Nat)) (s : State) : State :=
  let due := fun (c : Nat) (r : RedMsg) =>
    r.strand == s.me.sid && need.any fun p => p.1.meets p.2 (.spad r.gang c r.off) r.size
  (s.cores.filter fun c => c.2.redMsgs.any (due c.1)).foldl (fun t c => landMessages s.myCore (due c.1) c.1 t) s

/-- An access of a vector entry to some bytes comes after the accesses to them of the strand's earlier vector entries (15 R275
R276). -/
def follow (need : List (Loc × Nat)) (s : State) : State := followStores need (followMessages need s)

/-- An element of a vector store or of a reduction is issued: performed now, or left waiting behind the earlier ones (02 R11, log
entry 3). -/
def issueElement (v : VecStore) (s : State) : State :=
  let s := followMessages [(v.loc, v.data.length)] s
  if s.later then s.modCore s.myCore fun x => { x with stores := x.stores ++ [v] }
  else performElement s.agent (followStores [(v.loc, v.data.length)] s) v

/-- A store of a vector entry is issued. -/
def issueStore (rt : ReqType) (l : Loc) (nibble : Option Bool) (bs : List Byte) (s : State) : State :=
  issueElement { strand := s.me.sid, gang := s.me.id.gang, loc := l, data := bs, rt := rt, nibble := nibble } s

/-- Places of a list of accesses, in order, or the first fault (R232). -/
def placeAll (s : State) (ag : Agent) (acc : Access) (l : List (Nat × Word × Nat)) : Except Trap (List (Nat × Place)) :=
  match l with
  | [] => .ok []
  | (i, a, n) :: rest =>
    match check s ag acc a n n with
    | .error t => .error t
    | .ok p =>
      match placeAll s ag acc rest with
      | .error t => .error t
      | .ok ps => .ok ((i, p) :: ps)

/-- The translations a list of accesses asks for. -/
def touchAll (ag : Agent) (l : List Word) (s : State) : State := l.foldl (fun s a => touch s ag a) s

/-- The bytes at several places, as numbers. -/
def readEach (ag : Agent) (rt : ReqType) (n : Nat) : List (Nat × Place) → State → State × List (Nat × Nat)
  | [], s => (s, [])
  | (i, p) :: rest, s =>
    let (s, bs) := readAt s ag rt p.loc n
    let (s, es) := readEach ag rt n rest s
    (s, (i, natOfBytes bs) :: es)

/-- Elements stored at their places, ascending, so that the higher element wins (R77). -/
def writeEach (rt : ReqType) (n : Nat) : List (Place × Nat) → State → State
  | [], s => s
  | (p, x) :: rest, s => writeEach rt n rest (issueStore rt p.loc none (bytesOfNat n x) s)

/-- The bytes at several places, as numbers, but for those that were read early (log entry 6). -/
def readRest (ag : Agent) (rt : ReqType) (n : Nat) (early : List (Nat × List Byte)) (ps : List (Nat × Place)) (s : State) :
    State × List (Nat × Nat) :=
  let (s, es) := readEach ag rt n (ps.filter fun p => !early.any fun x => x.1 == p.1) s
  (s, es ++ (early.filter fun x => ps.any fun p => p.1 == x.1).map fun x => (x.1, natOfBytes x.2))

/-- The stride in bytes: the element size without a stride register (R235). -/
def strideOf (b : SReg) (n : Nat) (y : Word) : Word := if b = 0 then BitVec.ofNat 64 n else y

/-- The nibble accesses of an E2M1 form: element i in byte base + i / 2, and with the first element of each block its
two sidecar bytes; sidecar keys count from 8192 (R237; log entry 41). -/
def nibbleAccesses (base sc : Word) (gov : List Nat) : List (Nat × Word × Nat) :=
  let rec go : List Nat → List Nat → List (Nat × Word × Nat)
    | _, [] => []
    | seen, i :: rest =>
      let el := (i, base + BitVec.ofNat 64 (i / 2), 1)
      let b := i / 32
      if seen.contains b then el :: go seen rest
      else el :: (8192 + b, sc + BitVec.ofNat 64 (2 * b), 2) :: go (b :: seen) rest
  go [] gov

/-- The sidecar base of an E2M1 form must be even, also where no element is governed and so no block is accessed (R237). -/
def sidecarTrap (e2m1 : Bool) (sc : Word) (gov : List Nat) : Option Trap :=
  if e2m1 && gov.isEmpty && sc.getLsbD 0 then some { cause := .misalign, addr := sc } else none

/-- The bytes of an access of a VLD or VST at width w; sidecar keys count from 8192. -/
def accessBytes (w key : Nat) : Nat := if 8192 ≤ key then 2 else Nat.max 1 (w / 8)

/-- The accesses of a VLD or VST at width w. -/
def elementAccesses (base stride : Word) (n : Nat) (gov : List Nat) : List (Nat × Word × Nat) :=
  gov.map fun i => (i, base + BitVec.ofNat 64 i * stride, n)

/-- VLD (R235 R237). -/
def laneVld (m : MReg) (v : VReg) (b : SReg) (t : LoadType) (u : Bool) (e : Entry) (held : Option Trap) (s : State) :
    Lane :=
  let c := ctxFor s e
  let w := t.tag.width
  guardLane (tagsThenLengths true (c.fits w)) held s fun s =>
    let gov := c.governed (fileOf s) m
    match sidecarTrap (t == .e2m1) c.y gov with
    | some t => .fault t s
    | none =>
    let l := if t = .e2m1 then nibbleAccesses c.x c.y gov else elementAccesses c.x (strideOf b (w / 8) c.y) (w / 8) gov
    let rt : ReqType := if u then .uc else .si
    let s := touchAll s.agent (l.map fun p => p.2.1) s
    match placeAll s s.agent .vload l with
    | .error t => .fault t s
    | .ok ps =>
      let n := c.slot v
      let s := follow (ps.map fun p => (p.2.loc, accessBytes w p.1)) s
      if t = .e2m1 then
        let (s, es) := readRest s.agent rt 1 e.early (ps.filter fun p => decide (p.1 < 8192)) s
        let (s, bs) := readRest s.agent rt 2 e.early (ps.filter fun p => decide (8192 ≤ p.1)) s
        let x := (s.slot n).write 4 (es.map fun p => (p.1, if p.1 % 2 = 1 then p.2 / 16 else p.2 % 16))
        .done (s.putSlot n { x.writeBlocks (bs.map fun p => (p.1 - 8192, p.2 % 256, p.2 / 256)) with tag := .e2m1 })
      else
        let (s, es) := readRest s.agent rt (w / 8) e.early ps s
        .done (s.putSlot n { (s.slot n).write w es with tag := t.tag })

/-- VST (R236 R237). -/
def laneVst (m : MReg) (v : VReg) (b : SReg) (u : Bool) (e : Entry) (held : Option Trap) (s : State) : Lane :=
  let c := ctxFor s e
  let x := s.slot (c.slot v)
  let w := x.tag.width
  guardLane (tagsThenLengths true (c.fits w)) held s fun s =>
    let gov := c.governed (fileOf s) m
    match sidecarTrap (x.tag == .e2m1) c.y gov with
    | some t => .fault t s
    | none =>
    let l := if x.tag = .e2m1 then nibbleAccesses c.x c.y gov else elementAccesses c.x (strideOf b (w / 8) c.y) (w / 8) gov
    let rt : ReqType := if u then .uc else .wt
    let s := touchAll s.agent (l.map fun p => p.2.1) s
    match placeAll s s.agent .vstore l with
    | .error t => .fault t s
    | .ok ps =>
      if x.tag = .e2m1 then
        .done (ps.foldl (fun s p =>
          if p.1 < 8192 then issueStore rt p.2.loc (some (p.1 % 2 == 1)) (bytesOfNat 1 (x.elem 4 p.1)) s
          else
            let (sc, sp) := x.block (p.1 - 8192)
            issueStore rt p.2.loc none (bytesOfNat 2 (sc + 256 * sp)) s) s)
      else .done (writeEach rt (w / 8) (ps.map fun p => (p.2, x.elem w p.1)) s)

/-! Partial completion (R233). -/

/-- An element is done: VDONE keeps it (03 R44). -/
def State.markDone (s : State) (i : Nat) : State :=
  s.modMe fun t => { t with v := { t.v with vdone := t.v.vdone ||| BitVec.ofNat 8192 (2 ^ i) } }

/-- Where an address lands, whatever else an access to it meets; nothing where it has no translation. -/
def rawPlace (s : State) (ag : Agent) (a : Word) : Option Loc :=
  if (formTrap a).isSome then none
  else if a.getLsbD 63 then (spadLoc s ag a).toOption
  else match leafFor s ag a.toNat with
    | .ok (e, big, _) => some (.gen (leafPa e big a.toNat) .normal 0)
    | .error _ => none

/-- n bytes at two addresses have one in common: as addresses, or as bytes of memory that two pages map (24 R335). -/
def sameBytes (s : State) (ag : Agent) (n : Nat) (a b : Word) : Bool :=
  (decide (b.toNat < a.toNat + n) && decide (a.toNat < b.toNat + n))
  || (match rawPlace s ag a, rawPlace s ag b with
    | some k, some l => k.meets n l n
    | _, _ => false)

/-- The loop of R233 over the translated elements, ascending: an element that failed is left, and so is, for an entry
that writes its elements' bytes, one whose n bytes a failed lower element also writes. -/
def partialLoop (writes : Bool) (n : Nat) (act : State → Nat → Option Place → State) :
    List (Nat × Word × Except Trap (Option Place)) → List Word → Option Trap → State → State × Option Trap
  | [], _, t, s => (s, t)
  | (_, a, .error f) :: rest, failed, t, s => partialLoop writes n act rest (a :: failed) (t <|> some f) s
  | (i, a, .ok p) :: rest, failed, t, s =>
    if writes && failed.any fun b => sameBytes s s.agent n a b then
      partialLoop writes n act rest failed t s
    else partialLoop writes n act rest failed t ((act s i p).markDone i)

/-- An entry of R233: `addr` gives an element's address, none for an element that makes no access. -/
def partialRun (writes : Bool) (acc : Access) (n align : Nat) (addr : Nat → Option Word)
    (act : State → Nat → Option Place → State) (pending : List Nat) (s : State) : State × Option Trap :=
  let s := touchAll s.agent (pending.filterMap addr) s
  let ps := pending.map fun i =>
    match addr i with
    | none => (i, (0 : Word), Except.ok none)
    | some a => (i, a, match check s s.agent acc a n align with
      | .error t => Except.error t
      | .ok p => Except.ok (some p))
  partialLoop writes n act ps [] none s

/-- How a partially completing entry ends; one that issues only some of its elements keeps what is done (R233). -/
def partialEnd (e : Entry) (r : State × Option Trap) (fin : State → State) : Lane :=
  if e.only.isSome then .done r.1
  else
    match r.2 with
    | some t => .fault t r.1
    | none => .done (fin r.1)

/-- The address of an element by its 32-bit offset (R238). -/
def offsetAddr (base : Word) (vb : Slot) (i : Nat) : Word := base + BitVec.ofNat 64 (vb.elem 32 i)

/-- One element loaded into a slot. -/
def loadElement (n w : Nat) (s : State) (i : Nat) (p : Option Place) : State :=
  match p with
  | none => s.putSlot n ((s.slot n).write w [(i, 0)])
  | some p =>
    let s := follow [(p.loc, w / 8)] s
    let (s, bs) := readAt s s.agent .si p.loc (w / 8)
    s.putSlot n ((s.slot n).write w [(i, natOfBytes bs)])

/-- The destination takes its tag when the entry completes (03 R34). -/
def State.setTag (s : State) (n : Nat) (t : Tag) : State := s.putSlot n { s.slot n with tag := t }

/-- A gather writes elements of another width over its own offsets. -/
def overOffsets (v b : VReg) (t : LoadType) : Bool := v == b && t.tag.width != 32

/-- VLDX (R238). -/
def laneVldx (v b : VReg) (t : LoadType) (e : Entry) (held : Option Trap) (s : State) : Lane :=
  let c := ctxFor s e
  let vb := c.source s b
  let w := t.tag.width
  guardLane (tagsThenLengths (isOffset vb.tag) (c.fits w && c.fits 32)) held s fun s =>
    let (u, fault) := partialRun false .vload (w / 8) (w / 8) (fun i => some (offsetAddr c.x vb i)) (loadElement (c.slot v) w)
      (pendingOf s e) s
    partialEnd e (keepSource (overOffsets v b t) vb u, fault) fun s => s.setTag (c.slot v) t.tag

/-- VSTX (R238). -/
def laneVstx (v b : VReg) (e : Entry) (held : Option Trap) (s : State) : Lane :=
  let c := ctxFor s e
  let vb := s.slot (c.slot b)
  let x := s.slot (c.slot v)
  let w := x.tag.width
  guardLane (tagsThenLengths (isOffset vb.tag && x.tag != .e2m1) (c.fits w && c.fits 32)) held s fun s =>
    partialEnd e (partialRun true .vstore (w / 8) (w / 8) (fun i => some (offsetAddr c.x vb i))
      (fun s i p => match p with
        | none => s
        | some p => issueStore .wt p.loc none (bytesOfNat (w / 8) (x.elem w i)) s)
      (pendingOf s e) s) id

/-- The index of an element lies within the bounds of VLDB (R239). -/
def inBounds (c : Ctx) (vb : Slot) (i : Nat) : Bool :=
  decide (bitsOf c.y.toNat 31 0 ≤ vb.elem 32 i) && decide (vb.elem 32 i < bitsOf c.y.toNat 63 32)

/-- The address of an element of VLDB, none out of bounds (R239). -/
def boundedAddr (c : Ctx) (vb : Slot) (w i : Nat) : Option Word :=
  if inBounds c vb i then some (c.x + BitVec.ofNat 64 (vb.elem 32 i * (w / 8))) else none

/-- The entry at VCP keeps what it found of the elements that it has done, for the mask it writes at its end (R239). -/
def keepBounds (c : Ctx) (vb : Slot) (pending : List Nat) (s : State) : State :=
  s.modHead fun q => { q with inb := q.inb ++
    (pending.filter fun i => s.me.v.vdone.toNat.testBit i).map fun i => (i, inBounds c vb i) }

/-- VLDB (R239). -/
def laneVldb (m : MReg) (v b : VReg) (t : LoadType) (e : Entry) (held : Option Trap) (s : State) : Lane :=
  let c := ctxFor s e
  let vb := c.source s b
  let w := t.tag.width
  guardLane (tagsThenLengths (isOffset vb.tag) (c.fits w && c.fits 32)) held s fun s =>
    let gov := c.governedAll (fileOf s) m
    let (u, fault) := partialRun false .vload (w / 8) (w / 8) (boundedAddr c vb w) (loadElement (c.slot v) w) (pendingOf s e) s
    partialEnd e (keepSource (overOffsets v b t) vb (keepBounds c vb (pendingOf s e) u), fault) fun s =>
        putFile (s.setTag (c.slot v) t.tag)
          ((fileOf (s.setTag (c.slot v) t.tag)).setMaskBits 7 (gov.map fun i => (i, (e.inb.lookup i).getD (inBounds c vb i))))

/-! Reductions at memory (R78 R79 R240). -/

/-- One element reduced into its place: at the core's own banks or at the home, at a peer through a message (R78). -/
def reduceAt (s : State) (o : RedOp) (t : Tag) (p : Place) (x : Nat) : State :=
  let here : VecStore := { strand := s.me.sid, gang := s.me.id.gang, loc := p.loc, data := bytesOfNat (t.width / 8) x, rt := .wt,
                           red := some (o, t) }
  match p.loc with
  | .spad g c off =>
    if c = s.myCore then issueElement here s
    else
      let s := follow [(p.loc, t.width / 8)] s
      let r : RedMsg := { strand := s.me.sid, src := s.myCore, gang := g, off := off, size := t.width / 8, tag := t, op := o,
                          value := x }
      let s := s.modCore c fun y => { y with redMsgs := y.redMsgs ++ [r] }
      if s.later then s else landMessages s.myCore (fun _ => true) c s
  | .gen _ _ _ => issueElement here s

/-- The tags of VD by OPR3 (R240). -/
def redTag (o : RedOp) (t : Tag) : Bool :=
  match o with
  | .fadd => t == .f32
  | .and | .or => isInt t || t == .raw
  | .add | .max | .min | .maxn | .minn => isInt t

/-- VREDM (R240). -/
def laneVredm (v b : VReg) (o : RedOp) (e : Entry) (held : Option Trap) (s : State) : Lane :=
  let c := ctxFor s e
  let vb := s.slot (c.slot b)
  let x := s.slot (c.slot v)
  let w := x.tag.width
  guardLane (tagsThenLengths (isOffset vb.tag && redTag o x.tag) (c.fits w && c.fits 32)) held s fun s =>
    partialEnd e (partialRun true .vstore (w / 8) (w / 8) (fun i => some (offsetAddr c.x vb i))
      (fun s i p => match p with
        | none => s
        | some p => reduceAt s o x.tag p (x.elem w i))
      (pendingOf s e) s) id

end Sys2Proof.Machine
end

