-- ==== Sys2Proof/Machine/Homes.lean ====
section
/-! DEFINITION. The homes of APPEND and ONCE pages: reservations, the filled mark, sealing (07_append_once R105 to R114),
proposals and their answers (R115 to R119), and the entries VAPP and VPROPOSE (13_ref_memory R246 R248). -/

namespace Sys2Proof.Machine

/-- The longest filled prefix (R105). -/
def AppPage.prefixMark (p : AppPage) : Nat := p.pending.foldl (fun m r => Nat.min m r.off) p.tail

/-- The home pushes the lines of a sealed page below MARK to every other die (R112, 24 R340). -/
def pushReplicas (s : State) (f mark : Nat) : State :=
  let lines := (upto (ceilDiv mark 128)).map fun i => f * 512 + i
  ((upto 4).filter fun d => d != stackOf (f * 0x10000) / 2).foldl
    (fun s d => s.modDie d fun x => { x with replicas := unionList x.replicas lines }) s

/-- A SEAL that waits for a page learns how that ended, whatever becomes of the page before its next turn (R111, 24 R339). -/
def Strand.sawSeal (f : Nat) (whole : Bool) (t : Strand) : Strand :=
  if t.wait.frame = some f ∧ t.wait.sealed = none then { t with wait := { t.wait with sealed := some whole } } else t

def tellSeals (s : State) (f : Nat) (whole : Bool) : State :=
  { s with me := s.me.sawSeal f whole, others := s.others.map fun p => (p.1, p.2.sawSeal f whole) }

/-- A change of an APPEND page at its home: MARK follows, and a page that was being sealed is sealed once it is whole and
goes to every die as a replica (R106 R111 R112). -/
def setApp (s : State) (f : Nat) (p : AppPage) : State :=
  let p := { p with mark := if p.engineHeld then p.mark else p.prefixMark }
  if p.state = .sealing ∧ p.mark = p.tail then
    tellSeals (pushReplicas { s with apps := Map.set s.apps f { p with state := .sealed_ } } f p.mark) f true
  else { s with apps := Map.set s.apps f p }

/-- What the home answers to a request for n bytes (R106 R107 R114). -/
inductive Reserve where
  | offset (o : Nat)
  | full
  | sealed_
  deriving DecidableEq, Repr

def AppPage.reserve (p : AppPage) (n : Nat) : Reserve :=
  match p.state with
  | .open_ => if 0x10000 < p.tail + n then .full else .offset p.tail
  | .sealing | .sealed_ | .releasing => .sealed_

/-- A reservation taken and filled in one step (R106). -/
def appendNow (s : State) (f o : Nat) (bs : List Byte) : State :=
  let p := s.app f
  setApp (physWrite s (f * 0x10000 + o) bs) f { p with tail := o + bs.length }

/-- A reservation of VAPP taken; its data is on the way (R106). -/
def reserveLater (s : State) (f o : Nat) (bs : List Byte) (sid seq : Nat) : State :=
  let p := s.app f
  setApp s f { p with tail := o + bs.length, pending := p.pending ++ [{ off := o, data := bs, strand := sid, seq := seq }] }

/-- The n-th pending reservation of a page is filled (R106); nothing is written into a lost line (27 R364; log entry 61). -/
def fillReservation (s : State) (f n : Nat) : State :=
  let p := s.app f
  match p.pending[n]? with
  | none => s
  | some r =>
    let a := f * 0x10000 + r.off
    setApp (if s.lost a r.data.length then s else physWrite s a r.data) f { p with pending := p.pending.eraseIdx n }

/-- FULL (R107). -/
def fullWord : Word := BitVec.allOnes 64

/-- SEAL arrives at the home, with the releases that stay with the page (R111 R114, 15 R285). -/
def sealAt (s : State) (f : Nat) (sig : Sig) : State :=
  let p := { s.app f with sig := unionList (s.app f).sig sig }
  match p.state with
  | .open_ => setApp s f { p with state := .sealing }
  | .sealing | .sealed_ | .releasing => { s with apps := Map.set s.apps f p }

/-- The elements of a register below n, packed, padded to 8 bytes (R106 R107). -/
def packed (x : Slot) (w n : Nat) : List Byte := bytesOfNat (roundUp (n * w / 8) 8) (x.bits.toNat % 2 ^ (n * w))

/-- VAPP (13 R248). The entry remembers its reservation in `credits` and `z`. -/
def laneVapp (d : SReg) (b : VReg) (e : Entry) (held : Option Trap) (s : State) : Lane :=
  let c := ctxFor s e
  let x := s.slot (c.slot b)
  let w := x.tag.width
  guardLane (tagsThenLengths (x.tag != .e2m1) (c.fits w)) held s fun s =>
    let s := touch s s.agent c.x
    if e.credits = 1 then
      -- reserved earlier: complete once the home has filled it
      if s.apps.any fun p => p.2.pending.any fun r => r.strand == s.me.sid && r.seq == e.seq then .wait s
      else .done (s.wr d e.z)
    else
    match check s s.agent (.appendOp true) c.x 1 1 with
    | .error t => .fault t s
    | .ok p =>
      let f := frameOf p.loc.pa
      if c.vl = 0 then .done (s.wr d (BitVec.ofNat 64 (s.app f).tail))
      else
        let bs := packed x w c.vl
        match (s.app f).reserve bs.length with
        | .sealed_ => .fault { cause := .writeAfterSeal, addr := c.x } s
        | .full => .done (s.wr d fullWord)
        | .offset o =>
          if s.lost (f * 0x10000 + o) bs.length then .fault { cause := .dataLost, addr := c.x } s
          else if s.later then
            .wait ((reserveLater s f o bs s.me.sid e.seq).setHead { e with credits := 1, z := BitVec.ofNat 64 o })
          else .done ((appendNow s f o bs).wr d (BitVec.ofNat 64 o))

/-! Decide-once cells. -/

def State.once (s : State) (f : Nat) : OncePage := Map.getD s.onces f {}

/-- Whether the home takes a request that carries a generation (R116 R118): not while clearing, not with an old one, and
not at a frame that is no ONCE page any more (24 R339; log entry 24). -/
def accepts (s : State) (f gen : Nat) : Bool :=
  match Map.get? s.onces f with
  | none => false
  | some p => !p.clearing && p.gen == gen

/-- A die keeps a copy of a decided cell, named by its slot; while the page is cleared there is none to keep (R117). -/
def keepCell (die i : Nat) (s : State) : State :=
  match Map.get? s.onces (i / 4096) with
  | none => s
  | some o =>
    match Map.get? o.cells (i % 4096) with
    | none => s
    | some v => if o.clearing || 4 ≤ die then s else
      s.modDie die fun x => { x with cells := Map.set x.cells i { gen := o.gen, val := v, sig := Map.getD o.sigs (i % 4096) [] } }

/-- The answer to a proposal, of a copy or of the home: winner and status, with the release of a win at scope `rel`, which a waiting
release fence may have widened (15 R279 R287). Each answer is an acquire at scope `sc`:
LOST of the winner's releases, WON of those of the clear that emptied the cell, STALE of none (R116 R117 R120 R281, 16 R295). -/
def proposeAt (s : State) (ag : Agent) (rel sc : Scope) (p : Place) (x : Word) : State × Word × Nat :=
  match localCell s ag p with
  | some c => (acquire s ag sc c.sig, c.val, 1)
  | none =>
  let f := frameOf p.loc.pa
  let i := p.loc.pa % 0x10000 / 16
  if !accepts s f p.gen then (acquire s ag sc [], 0, 2)
  else
    let o := s.once f
    match Map.get? o.cells i with
    | some v => (acquire s ag sc (Map.getD o.sigs i []), v, 1)
    | none =>
      let s := acquire s ag sc o.sig
      ({ s with onces := Map.set s.onces f { o with cells := Map.set o.cells i x, sigs := Map.set o.sigs i (releaseSig s ag rel) } }, x, 0)

/-- The answer to an OREAD, of a copy or of the home: value and status; each is an acquire (R117 R118 R120, 16 R295). -/
def oreadAt (s : State) (ag : Agent) (sc : Scope) (p : Place) : State × Word × Nat :=
  match localCell s ag p with
  | some c => (acquire s ag sc c.sig, c.val, 1)
  | none =>
  let f := frameOf p.loc.pa
  let i := p.loc.pa % 0x10000 / 16
  if !accepts s f p.gen then (acquire s ag sc [], 0, 2)
  else
    let o := s.once f
    match Map.get? o.cells i with
    | some v => (acquire s ag sc (Map.getD o.sigs i []), v, 1)
    | none => (acquire s ag sc o.sig, 0, 0)

/-- VPROPOSE (13 R246). -/
def laneVpropose (d b : VReg) (e : Entry) (held : Option Trap) (s : State) : Lane :=
  let c := ctxFor s e
  let vb := s.slot (c.slot b)
  let x := s.slot (c.slot d)
  let n := c.slot d
  guardLane (tagsThenLengths (isOffset x.tag && isOffset vb.tag) (c.fits 32)) held s fun s =>
    let s := drainPath s
    partialEnd e (partialRun true (.onceOp true) 16 16 (fun i => some (offsetAddr c.x vb i))
      (fun s i p => match p with
        | none => s
        | some p =>
          let (s, w, st) := proposeAt s s.agent .system .system p (BitVec.ofNat 64 (x.elem 32 i))
          let s := s.putSlot n ((s.slot n).write 32 [(i, w.toNat)])
          let s := s.putSlot (n + 1) ((s.slot (n + 1)).write 32 [(i, st)])
          putFile s ((fileOf s).setMaskBits 7 [(i, st == 0)]))
      (pendingOf s e) s) fun s => s.setTag (n + 1) .n32

end Sys2Proof.Machine
end

