-- ==== Sys2Proof/Machine/Matrix.lean ====
section
/-! DEFINITION. The matrix unit of a core: rows against tiles, sparse rows, drains, tile writes and transposition
(09_matrix R141 to R154, 04_numbers R59, 14_ref_engines R257 to R264). -/

namespace Sys2Proof.Machine

/-! Tiles (03 R37). -/

/-- The K of a tag; RAW and the tags no tile takes have none. -/
def tileK : Tag → Nat
  | .e4m3 | .e5m2 | .i8 => 128
  | .bf16 | .f16 => 64
  | .e2m1 => 256
  | .raw | .i16 | .i32 | .n8 | .n16 | .n32 | .f32 | .e8m0 => 0

def Core.tile (x : Core) (t : TReg) : Tile := Map.getD x.tiles t.toNat {}
def Core.accRow (x : Core) (r : Nat) : AccRow := Map.getD x.acc r {}

/-- The bits of element (k, n) of a tile (R37). -/
def Tile.bitsAt (t : Tile) (k n : Nat) : Nat := elemAt t.bits.toNat t.tag.width (k * 128 + n)

/-- The sidecar of block b of column n of an E2M1 tile: scale, special (R37). -/
def Tile.blockAt (t : Tile) (n b : Nat) : Nat × Nat :=
  (elemAt t.side.toNat 8 ((n * 8 + b) * 2), elemAt t.side.toNat 8 ((n * 8 + b) * 2 + 1))

/-- The exact value of element (k, n) of a tile, with NV for a NaN scale (04 R50). -/
def Tile.exact (t : Tile) (k n : Nat) : FVal × Nat :=
  if t.tag = .e2m1 then
    let (sc, sp) := t.blockAt n (k / 32)
    e2m1Value (t.bitsAt k n) sc sp
  else (valueOf t.tag (t.bitsAt k n), 0)

/-- The row pitch (R141). -/
def Tile.pitch (t : Tile) : Nat := if t.tag = .e2m1 then roundUp t.depth 32 else t.depth

/-- The kind of the accumulator a tile feeds (R142). -/
def Tile.kind (t : Tile) : AccKind := if t.tag = .i8 then .i32 else .f32

/-- The pairs of row and tile tags a matrix instruction accepts (R142). -/
def pairAccepted (row tile : Tag) : Bool :=
  match row, tile with
  | .e4m3, .e4m3 | .e4m3, .e5m2 | .e5m2, .e4m3 | .e5m2, .e5m2 => true
  | .i8, .i8 | .bf16, .bf16 | .f16, .f16 | .e2m1, .e2m1 => true
  | _, _ => false

/-! Dot products (04 R59). -/

/-- The exact sum of the products of one block. A NaN operand, an invalid product and opposite infinities give NaN. -/
def blockSum : List (FVal × FVal) → FVal
  | [] => .fin false 0 0
  | [(a, b)] => (mulVal a b).1
  | (a, b) :: rest => (addVal .rne (mulVal a b).1 (blockSum rest)).1

/-- One block added to an accumulator element: the exact sum rounded once, then the sum rounded (R59). A block with no
position taking part adds nothing, whatever its scale (09 R144; log entry 58). -/
def addBlock (acc : Nat) (ps : List (FVal × FVal)) : Res :=
  match ps with
  | [] => (acc, 0)
  | _ =>
    let v := blockSum ps
    let (b, f1) := roundVal fmtF32 .rne v
    let (r, f2) := faddElem .f32 .rne acc b
    (r, (if v == .nan then flNV else 0) ||| f1 ||| f2)

/-- Blocks added in ascending order. -/
def addBlocks : Nat → List (List (FVal × FVal)) → Res
  | acc, [] => (acc, 0)
  | acc, ps :: rest =>
    let (x, f1) := addBlock acc ps
    let (y, f2) := addBlocks x rest
    (y, f1 ||| f2)

/-- A row as the matrix unit meets it: blocks of held positions, each a tile, its row k and the row value's bits index. -/
abbrev RowBlocks := List (List (Tile × Nat × Nat))

/-- One accumulator element after a row (R143 R146). -/
def dotElement (kind : AccKind) (v : Slot) (row : RowBlocks) (n acc : Nat) : Res :=
  match kind with
  | .i32 =>
    let sum : Int := (row.flatMap id).foldl (fun z p =>
      z + intVal .i8 (v.elem 8 p.2.2) * intVal .i8 (p.1.bitsAt p.2.1 n)) 0
    (wrapInt 32 ((acc : Int) + sum), 0)
  | .f32 | .none =>
    addBlocks acc (row.map fun ps => ps.map fun p => ((v.exact p.2.2).1, (p.1.exact p.2.1 n).1))

/-- One accumulator row after a row of the operand: 128 columns (R143). -/
def dotRow (kind : AccKind) (v : Slot) (row : RowBlocks) (old : AccRow) : AccRow × Nat :=
  let (es, fl) := collect (fun n => dotElement kind v row n (elemAt old.bits.toNat 32 n)) (upto 128)
  ({ kind := kind, bits := BitVec.ofNat 4096 (es.foldl (fun acc p => setElem acc 32 p.1 p.2) 0) }, fl)

/-- Rows j = 0 to r − 1 into accumulator rows a + j of a core (R143). -/
def accumulate (core : Nat) (kind : AccKind) (v : Slot) (a : Nat) (row : Nat → RowBlocks) : Nat → State → State × Nat
  | 0, s => (s, 0)
  | r + 1, s =>
    let (s, f1) := accumulate core kind v a row r s
    let (x, f2) := dotRow kind v (row r) ((s.core core).accRow (a + r))
    (s.modCore core fun y => { y with acc := Map.set y.acc (a + r) x }, f1 ||| f2)

/-- Some row named is of the other kind (R38). -/
def kindClash (x : Core) (kind : AccKind) (a r : Nat) : Bool :=
  (upto r).any fun j => (x.accRow (a + j)).kind != .none && (x.accRow (a + j)).kind != kind

/-- The positions 0 to KD − 1 of a dense row in blocks of 32: register element j × P + k with tile row k. A block wholly beyond KD is none of
them, whatever its scale (09 R144; log entry 58). -/
def denseRow (t : Tile) (j : Nat) : RowBlocks :=
  (upto (ceilDiv t.depth 32)).map fun b =>
    (upto (Nat.min 32 (t.depth - 32 * b))).map fun k => (t, 32 * b + k, j * t.pitch + (32 * b + k))

/-- MROW (R143 R257). That the fault held for a popped operand is raised before the FORMAT of a row of the other kind is the model's
choice (log entry 73). -/
def laneMrow (d : TReg) (a : VReg) (e : Entry) (held : Option Trap) (s : State) : Lane :=
  let c := ctxFor s e
  let v := s.slot (c.slot a)
  let t := (s.core s.myCore).tile d
  let r := c.vl / t.pitch
  let a0 := c.x.toNat
  guardLane (tagsThenLengths (pairAccepted v.tag t.tag)
      (c.fits v.tag.width && c.vl % t.pitch == 0 && (r == 0 || decide (a0 + r ≤ 256)))) held s fun s =>
    if kindClash (s.core s.myCore) t.kind a0 r then .fault { cause := .format } s
    else
      let (s, fl) := accumulate s.myCore t.kind v a0 (denseRow t) r s
      .done s fl

/-- The held positions of sparse rows: (logical position, index of its value) (R146). -/
def heldPositions (k vl : Nat) : List (Nat × Nat) := ((upto vl).filter fun i => k.testBit i).mapIdx fun n i => (i, n)

/-- Row j of a sparse operand: the blocks of each tile of the pair separately, only held positions (R146); a block without one adds
nothing, whatever its scale (09 R144; log entry 58). -/
def sparseRow (t u : Tile) (held : List (Nat × Nat)) (j : Nat) : RowBlocks :=
  let kd := t.depth
  (upto 2).flatMap fun h => (upto (ceilDiv kd 32)).map fun b =>
    let base := j * (2 * kd) + h * kd
    (held.filter fun p => decide (base + 32 * b ≤ p.1) && decide (p.1 < base + Nat.min kd (32 * b + 32))).map fun p =>
      (if h = 0 then t else u, p.1 - base, p.2)

/-- MROWS (R146 R258). -/
def laneMrows (m : MReg) (n : TReg) (a : VReg) (e : Entry) (held : Option Trap) (s : State) : Lane :=
  let c := ctxFor s e
  let v := s.slot (c.slot a)
  let t := (s.core s.myCore).tile n
  let u := (s.core s.myCore).tile (n + 1)
  let ks := 2 * t.depth
  let r := c.vl / ks
  let a0 := c.x.toNat
  guardLane (tagsThenLengths (pairAccepted v.tag t.tag && t.tag == u.tag && t.depth == u.depth)
      (c.fits v.tag.width && c.vl % ks == 0 && (c.vl == 0 || decide (a0 + r ≤ 256)))) held s fun s =>
    if kindClash (s.core s.myCore) t.kind a0 r then .fault { cause := .format } s
    else
      let hs := heldPositions ((fileOf s).mask m) c.vl
      let (s, fl) := accumulate s.myCore t.kind v a0 (sparseRow t u hs) r s
      .done s fl

/-- The targets that suit a row kind (R151). -/
def drains (k : AccKind) (t : Tag) : Bool :=
  match k with
  | .none => true
  | .f32 => t != .i32 && t != .i8
  | .i32 => t == .i32 || t == .i8

/-- The chain of R56 over drained elements, each with the flag of its widening (04 R47); an element of a NONE row is zero and
leaves the carry as it is (R38; log entry 25). -/
def drainChain (t : Tag) : List (Nat × Option (FVal × Nat)) → Nat → List (Nat × Nat) × Nat × Nat
  | [], carry => ([], carry, 0)
  | (i, none) :: rest, carry =>
    let (es, last, fs) := drainChain t rest carry
    ((i, 0) :: es, last, fs)
  | (i, some (x, nv)) :: rest, carry =>
    let (q, c, fl) := efStep t x nv carry
    let (es, last, fs) := drainChain t rest c
    ((i, q) :: es, last, fl ||| fs)

/-- MDRAIN (R151 R259). -/
def laneMdrain (d : VReg) (ef : Bool) (t : Tag) (e : Entry) (held : Option Trap) (s : State) : Lane :=
  let c := ctxFor s e
  let r := c.vl / 128
  let a0 := c.x.toNat
  let w := t.width
  guardLane (tagsThenLengths true (c.fits w && c.vl % 128 == 0 && (r == 0 || decide (a0 + r ≤ 256)))) held s fun s =>
    let x := s.core s.myCore
    if (upto r).any fun j => !drains (x.accRow (a0 + j)).kind t then .fault { cause := .format } s
    else
      let n := c.slot d
      let kind := fun i => (x.accRow (a0 + i / 128)).kind
      let bits := fun i => if kind i = .none then 0 else elemAt (x.accRow (a0 + i / 128)).bits.toNat 32 (i % 128)
      if t = .e2m1 then
        let (codes, blocks, fl) := quantizeAll ((upto c.vl).map fun i => (i, fmtF32.value (bits i), isSnan .f32 (bits i)))
        .done (s.putSlot n { ((s.slot n).write 4 codes).writeBlocks blocks with tag := .e2m1 }) fl
      else if ef then
        let (es, last, fl) := drainChain t ((upto c.vl).map fun i =>
          (i, if kind i = .none then none else some (fmtF32.value (bits i), snanFlag .f32 (bits i)))) s.me.efc.toNat
        .done ((s.putSlot n { (s.slot n).write w es with tag := t }).modMe fun m => { m with efc := BitVec.ofNat 32 last }) fl
      else
        let (es, fl) := collect (fun i => if kind i = .i32 then convertElem .i32 t c.rm (bits i)
          else if kind i = .none then (0, 0) else convertElem .f32 t c.rm (bits i)) (upto c.vl)
        .done (s.putSlot n { (s.slot n).write w es with tag := t }) fl

/-- MZERO (R260). -/
def laneMzero (e : Entry) (s : State) : Lane :=
  let a := e.x.toNat
  let n := e.y.toNat
  if 0 < n ∧ 256 < a + n then .fault { cause := .vlRange } s
  else .done (s.modCore s.myCore fun x => { x with acc := x.acc.filter fun p => decide (p.1 < a) || decide (a + n ≤ p.1) })

/-- Puts a tile of a core. -/
def State.putTile (s : State) (core : Nat) (t : TReg) (x : Tile) : State :=
  s.modCore core fun y => { y with tiles := Map.set y.tiles t.toNat x }

/-- TSET (R261). -/
def laneTset (d : TReg) (t : Tag) (e : Entry) (s : State) : Lane :=
  let kd := e.x.toNat
  if kd = 0 ∨ tileK t < kd then .fault { cause := .vlRange } s
  else .done (s.putTile s.myCore d { (s.core s.myCore).tile d with tag := t, depth := kd })

/-- TWROW (R148 R262). -/
def laneTwrow (d : TReg) (a : VReg) (e : Entry) (held : Option Trap) (s : State) : Lane :=
  let c := ctxFor s e
  let v := s.slot (c.slot a)
  let t := (s.core s.myCore).tile d
  let k0 := c.x.toNat
  guardLane (tagsThenLengths
      (t.tag != .e2m1 && t.tag != .raw && v.tag != .e2m1 && v.tag != .e8m0 && v.tag != .raw)
      (c.fits v.tag.width && c.vl % 128 == 0 && decide (k0 + c.vl / 128 ≤ tileK t.tag))) held s fun s =>
    let w := t.tag.width
    let (es, fl) := collect (fun i => convertElem v.tag t.tag c.rm (v.elem v.tag.width i)) (upto c.vl)
    let bits := es.foldl (fun acc p => setElem acc w (128 * k0 + p.1) p.2) t.bits.toNat
    .done (s.putTile s.myCore d { t with bits := BitVec.ofNat 131072 bits, written := t.written || c.vl != 0 }) fl

/-- TRCOL (R153 R262). -/
def laneTrcol (d : VReg) (a : TReg) (e : Entry) (held : Option Trap) (s : State) : Lane :=
  let c := ctxFor s e
  let t := (s.core s.myCore).tile a
  let kd := t.depth
  let n0 := c.x.toNat
  let w := t.tag.width
  guardLane (tagsThenLengths (t.tag != .raw)
      (c.fits w && c.vl % kd == 0 && decide (n0 + c.vl / kd ≤ 128) && (t.tag != .e2m1 || kd % 32 == 0))) held s fun s =>
    let n := c.slot d
    let x := (s.slot n).write w ((upto c.vl).map fun i => (i, t.bitsAt (i % kd) (n0 + i / kd)))
    let x := if t.tag = .e2m1 then
        x.writeBlocks ((upto (c.vl / 32)).map fun b => (b, t.blockAt (n0 + 32 * b / kd) (32 * b % kd / 32)))
      else x
    .done (s.putSlot n { x with tag := t.tag })

/-! Tile images (R149 R263). -/

/-- The bytes of an image for a tag. -/
def imageSize (t : Tag) : Nat := if t = .e2m1 then 18432 else 16384

/-- The checks of an image address and where it lies: core and offset (R263, 27 R364). That an image which runs past the gang's pages names
its base in ADDR is the model's choice (log entry 82). -/
def imagePlace (s : State) (a : Word) (n : Nat) : Except Trap (Nat × Nat) :=
  if !a.getLsbD 63 || bitsOf a.toNat 62 24 != 0 || bitAt a.toNat 20 then .error { cause := .scratchpadRange, addr := a }
  else if a.toNat % 256 ≠ 0 then .error { cause := .misalign, addr := a }
  else
    let off := bitsOf a.toNat 19 0
    let cid := bitsOf a.toNat 23 21
    if spadInGang s s.me.id.gang cid off && decide (off + n ≤ 2 ^ 20) && spadInGang s s.me.id.gang cid (off + n - 1) then
      let core := clusterOfCore s.myCore * 8 + cid
      if (upto 3).any fun k => lostPage s (.spad s.me.id.gang core (off + Nat.min (k * 0x4000) (n - 1))) then
        .error { cause := .dataLost, addr := a }
      else .ok (core, off)
    else .error { cause := .scratchpadRange, addr := a }

/-- The image: tile bits and sidecar bits. -/
def readImage (s : State) (core off : Nat) (t : Tag) : State × BitVec 131072 × BitVec 16384 :=
  let g := s.me.id.gang
  let s := (upto 3).foldl (fun s k => refillPage s g core (off + Nat.min (k * 0x4000) (imageSize t - 1))) s
  let m := spadMem s g core
  (s, BitVec.ofNat 131072 (natOfBytes (m.readLong off 128)),
    if t = .e2m1 then BitVec.ofNat 16384 (natOfBytes (m.readLong (off + 16384) 16)) else 0)

/-- TLDS (R149 R263): the tile keeps its tag and depth. -/
def laneTlds (d : TReg) (e : Entry) (s : State) : Lane :=
  let t := (s.core s.myCore).tile d
  match imagePlace s e.x (imageSize t.tag) with
  | .error f => .fault f s
  | .ok (core, off) =>
    let (s, b, sd) := readImage s core off t.tag
    .done (s.putTile s.myCore d { t with bits := b, side := sd, written := true })

/-- A core's matrix unit takes one tile write, and the barrier its landing (R149 R154 R300). -/
def applyTileWrite (s : State) (core : Nat) (w : TileWrite) : State :=
  let t : Tile := { bits := w.bits, side := w.side, tag := w.tag, depth := w.depth, written := true }
  let s := s.modCore core fun y => { y with tiles := Map.set y.tiles w.tile t }
  match w.bar with
  | none => s
  | some off => barrierStep s w.gang core off (.land w.bytes) []

/-- The oldest tile write sent to a core is done. -/
def landTileWrite (s : State) (core : Nat) : State :=
  match (s.core core).tileWrites with
  | [] => s
  | w :: rest => applyTileWrite (s.modCore core fun y => { y with tileWrites := rest }) core w

/-- The tile writes of a core are performed. -/
def landWrites (core : Nat) : Nat → State → State
  | 0, s => s
  | n + 1, s => if (s.core core).tileWrites.isEmpty then s else landWrites core n (landTileWrite s core)

/-- A tile write is sent to another core, behind those on their way to it (R154, R264). That the writes on their way to one core land in
the order in which they were sent, also those of different cores, is the model's choice (log entry 77). -/
def sendTileWrite (s : State) (core : Nat) (w : TileWrite) : State :=
  let s := s.modCore core fun y => { y with tileWrites := y.tileWrites ++ [w] }
  if s.later then s else landWrites core (s.core core).tileWrites.length s

/-- TLDM (R149 R263 R264): its own core's write follows in its own sequence, the others are sent. -/
def laneTldm (d : TReg) (e : Entry) (s : State) : Lane :=
  let t := (s.core s.myCore).tile d
  let n := imageSize t.tag
  let m := e.y.toNat
  let gang := s.me.id.gang
  let cids := (upto 8).filter fun k => bitAt m k
  let boff := bitsOf m 31 12
  let bv := bitAt m 8
  match imagePlace s e.x n with
  | .error f => .fault f s
  | .ok (core, off) =>
    if bitsOf m 11 9 != 0 || bitsOf m 63 32 != 0 || cids.any fun k => !coreInGang s gang k then
      .fault { cause := .scratchpadRange } s
    else if bv && boff % 16 != 0 then .fault { cause := .misalign } s
    else if bv && cids.any fun k => !spadInGang s gang k boff then .fault { cause := .scratchpadRange } s
    else
      let (s, b, sd) := readImage s core off t.tag
      let w : TileWrite := { gang := gang, tile := d.toNat, bits := b, side := sd, tag := t.tag, depth := t.depth,
                             bar := if bv then some boff else none, bytes := n }
      .done (cids.foldl (fun s k =>
        let c := clusterOfCore s.myCore * 8 + k
        if c = s.myCore then applyTileWrite s c w else sendTileWrite s c w) s)
where
  /-- A core of the cluster holds a strand of the gang (R73). -/
  coreInGang (s : State) (gang k : Nat) : Bool :=
    match s.gang? gang with
    | none => false
    | some g => g.cids.contains k

end Sys2Proof.Machine
end

