-- ==== Sys2Proof/Machine/Copy.lean ====
section
/-! DEFINITION. The copy engine of a core: shape records, granted rows, acceptance, landing and loss of chunks
(08_copies R122 to R136, 14_ref_engines R265), and the binding of stream slots (R137 R138 R266). -/

namespace Sys2Proof.Machine

/-! Shape records (R122). -/

structure Shape where
  rank : Nat
  esz : Nat
  stag : Nat
  ctag : Nat
  rop : Nat
  chan : Nat
  scope : Nat
  mcast : Nat
  src : Word
  dst : Word
  ext : List Nat
  sstr : List Int
  dstr : List Int
  reserved : Bool
  deriving DecidableEq, Repr

def Shape.ofBytes (b : List Byte) : Shape :=
  let f := fun o n => blk b o n
  { rank := f 0 1, esz := f 1 1, stag := f 2 1 % 16, ctag := f 3 1 % 16, rop := f 4 1, chan := f 5 1 % 8,
    scope := f 5 1 / 16 % 8, mcast := f 6 1, src := BitVec.ofNat 64 (f 8 8), dst := BitVec.ofNat 64 (f 16 8)
    ext := (upto 5).map fun d => f (24 + 4 * d) 4
    sstr := (upto 5).map fun d => if d = 0 then 0 else sx 64 (f (40 + 8 * d) 8)
    dstr := (upto 5).map fun d => if d = 0 then 0 else sx 64 (f (72 + 8 * d) 8)
    reserved := f 2 1 / 16 != 0 || f 3 1 / 16 != 0 || bitAt (f 5 1) 7 || bitAt (f 5 1) 3 || f 7 1 != 0 || f 44 4 != 0
      || f 112 16 != 0 }

def Shape.e (r : Shape) (d : Nat) : Nat := (r.ext[d]?).getD 0
def Shape.ss (r : Shape) (d : Nat) : Int := (r.sstr[d]?).getD 0
def Shape.ds (r : Shape) (d : Nat) : Int := (r.dstr[d]?).getD 0

/-- The source element size in bytes. -/
def Shape.ssize (r : Shape) : Nat := 2 ^ r.esz

/-- The tag of a 4-bit field; a reserved code names none. -/
def Shape.srcTag (r : Shape) : Option Tag := Tag.ofCode r.stag
def Shape.convTag (r : Shape) : Option Tag := Tag.ofCode r.ctag

/-- The destination element size (R123). -/
def Shape.dsize (r : Shape) : Nat := if r.ctag = 0 then r.ssize else ((r.convTag.getD .raw).width / 8)

/-- The result tag of a reduction (R125). -/
def Shape.resTag (r : Shape) : Option Tag := if r.ctag = 0 then r.srcTag else r.convTag

/-- NROWS; 0 when any extent is 0 (R123). -/
def Shape.nrows (r : Shape) : Nat := if r.ext.contains 0 then 0 else r.e 1 * r.e 2 * r.e 3 * r.e 4

/-- Index i_d of row q (R123). -/
def Shape.index (r : Shape) (q : Nat) : Nat → Nat
  | 1 => q % r.e 1
  | 2 => q / r.e 1 % r.e 2
  | 3 => q / (r.e 1 * r.e 2) % r.e 3
  | 4 => q / (r.e 1 * r.e 2 * r.e 3) % r.e 4
  | _ => 0

/-- The first byte of row q in the source and in the destination (R123). -/
def Shape.srcRow (r : Shape) (q : Nat) : Word :=
  r.src + BitVec.ofInt 64 (([1, 2, 3, 4].map fun d => (r.index q d : Int) * r.ss d).sum)
def Shape.dstRow (r : Shape) (q : Nat) : Word :=
  r.dst + BitVec.ofInt 64 (([1, 2, 3, 4].map fun d => (r.index q d : Int) * r.ds d).sum)

/-- The conversion tags a copy admits (R124 check 2). -/
def copyTag : Option Tag → Bool
  | some .i8 | some .i16 | some .i32 | some .n8 | some .n16 | some .n32 | some .f32 | some .f16 | some .bf16
  | some .e4m3 | some .e5m2 => true
  | _ => false

/-- The reduction is allowed for the result tag (R125). -/
def ropAllowed (rop : Nat) (t : Option Tag) : Bool :=
  match rop, t with
  | 0, _ => true
  | 1, some t => isInt t
  | 2, some t => t == .f32
  | 3, some t | 4, some t => isInt t || isFloat3 t
  | _, _ => false

/-- span_d of check 4; EXT − 1 is taken as a signed number (log entry 26). -/
def Shape.span (r : Shape) : Nat → Int
  | 0 => (r.e 0 * r.dsize : Nat)
  | d + 1 => ((r.e (d + 1) : Int) - 1) * (r.ds (d + 1)).natAbs + r.span d

/-- The destination of one core of a multicast: the core field replaced (R129). -/
def withCore (a : Word) (cid : Nat) : Word := (a &&& ~~~(0xE00000 : Word)) ||| BitVec.ofNat 64 (cid * 2 ^ 21)

/-- The cores a multicast selects. -/
def Shape.targets (r : Shape) : List Nat := (upto 8).filter fun k => bitAt r.mcast k

/-- Check 6 (R124): destination, barrier and multicast within the gang. -/
def Shape.outside (r : Shape) (s : State) (bar : Word) : Bool :=
  let ok := fun a => match spadLoc s s.agent a with
    | .ok _ => (formTrap a).isNone
    | .error _ => false
  let inGang := fun k => match s.gang? s.me.id.gang with
    | some g => g.cids.contains k
    | none => false
  let reach := fun a => if r.mcast = 0 then ok a else r.targets.all fun k => ok (withCore a k)
  (r.dst.getLsbD 63 && !reach r.dst) || (bar != 0 && (!bar.getLsbD 63 || !reach bar))
    || (r.targets.any fun k => !inGang k) || (r.mcast != 0 && !r.dst.getLsbD 63)

/-- The first failing check of R124, at record address `a`. That a reserved STAG code fails check 2 also where CTAG is RAW is the model's
choice (log entry 81). -/
def Shape.check (r : Shape) (s : State) (a bar : Word) : Option Nat :=
  let high := (upto 5).any fun d => decide (r.rank ≤ d) && (r.e d != 1 || r.ss d != 0 || r.ds d != 0)
  if a.toNat % 64 ≠ 0 || r.rank = 0 || 5 < r.rank || high || 5 ≤ r.scope || r.reserved then some 1
  else if 3 < r.esz || (r.stag != 0 && (match r.srcTag with
        | none => true
        | some t => t.width != 8 * r.ssize))
      || (r.ctag != 0 && !(copyTag r.srcTag && copyTag r.convTag)) || 4 < r.rop || !ropAllowed r.rop r.resTag then some 2
  else if r.src.toNat % r.ssize ≠ 0 || r.dst.toNat % r.dsize ≠ 0
      || [1, 2, 3, 4].any (fun d => r.ss d % r.ssize != 0 || r.ds d % r.dsize != 0) then some 3
  else if [1, 2, 3, 4].any fun d => decide (d < r.rank) && decide (1 < r.e d) && decide ((r.ds d).natAbs < r.span (d - 1)) then
    some 4
  else if 65536 < r.e 0 * r.ssize || 65536 < r.e 0 * r.dsize then some 5
  else if r.outside s bar then some 6
  else none

/-! Spans: the first and the last byte are translated (R127). -/

/-- The span of n bytes at an address for an access, or the first fault, whose address is that byte's. -/
def spanOf (s : State) (ag : Agent) (acc : Access) (a : Word) (n : Nat) : Except Trap Span :=
  match check s ag acc a 1 1 with
  | .error t => .error t
  | .ok p =>
    match check s ag acc (a + BitVec.ofNat 64 (n - 1)) 1 1 with
    | .error t => .error t
    | .ok q =>
      let head := if a.getLsbD 63 then n else Nat.min n (0x10000 - a.toNat % 0x10000)
      .ok { first := p.loc, last := q.loc, len := n, head := head }

/-- The translations of a span. -/
def touchSpan (s : State) (ag : Agent) (a : Word) (n : Nat) : State :=
  touch (touch s ag a) ag (a + BitVec.ofNat 64 (n - 1))

/-- n elements of `size` bytes read from a span, from element `lo` up. -/
def readSpan (ag : Agent) (rt : ReqType) (p : Span) (size lo : Nat) : Nat → State → State × List Byte
  | 0, s => (s, [])
  | n + 1, s =>
    let (s, a) := readSpan ag rt p size lo n s
    let (s, b) := readAt s ag rt (p.at ((lo + n) * size)) size
    (s, a ++ b)

/-! Chunks (R132). -/

/-- The agent the copy engine of a core is (17 R298). -/
def engineAgent (core gang : Nat) : Agent :=
  { part := 0, level := .k, core := some core, die := dieOfCore core, gang := gang }

/-- Some byte of n elements of a span lies in a lost line, or in a scratchpad page that cannot be refilled (27 R364). -/
def spanLost (s : State) (p : Span) (size lo n : Nat) : Bool :=
  !s.lostLines.isEmpty && (upto n).any fun i => match p.at ((lo + i) * size) with
    | .gen pa _ _ => s.lost pa size
    | l => lostPage s l

/-- The reduction of a copy on the result tag (R125). -/
def copyRed (rop : Nat) (t : Tag) (old x : Nat) : Nat :=
  match rop with
  | 1 => (old + x) % 2 ^ t.width
  | 2 => (faddElem .f32 .rne old x).1
  | 3 => if isInt t then (if intVal t old < intVal t x then x else old) else (fminmaxElem t true old x).1
  | _ => if isInt t then (if intVal t x < intVal t old then x else old) else (fminmaxElem t false old x).1

/-- A reduction at a peer comes after the messages that its core has sent there (05 R78). -/
def behindMessages (ag : Agent) (l : Loc) (s : State) : State :=
  match l, ag.core with
  | .spad _ k _, some core => landMessages core (fun _ => true) k s
  | _, _ => s

/-- One element of a chunk performed at its destination (R125 R132). -/
def landElement (ag : Agent) (c : Chunk) (s : State) (i x : Nat) : State :=
  let v := if c.ctag = .raw then x else (convertElem c.stag c.ctag .rne x).1
  let t := if c.ctag = .raw then c.stag else c.ctag
  let l := c.dst.at ((c.lo + i) * c.dsize)
  if c.rop = 0 then writeAt s ag .wt l (bytesOfNat c.dsize v)
  else updateAt (behindMessages ag l s) ag .wt l c.dsize fun old => copyRed c.rop t old v

/-- The lines of device memory a chunk writes. -/
def Chunk.lines (c : Chunk) : List Nat :=
  (upto c.n).foldl (fun acc i => match c.dst.at ((c.lo + i) * c.dsize) with
    | .gen pa _ _ => if acc.contains (lineOf pa) then acc else lineOf pa :: acc
    | .spad _ _ _ => acc) []

/-- The n-th chunk of a core leaves the engine; with its row's last chunk the row's credit returns, if it has not (R126). -/
def dropChunk (s : State) (core n : Nat) (c : Chunk) : State :=
  let s := s.modCore core fun y => { y with chunks := y.chunks.eraseIdx n }
  if c.paid || (s.core core).chunks.any fun d => d.order == c.order then s
  else freeCredits s core c.chan 1

/-- A chunk is lost: nothing is written, its barrier is broken on every destination core, a record tells the channel and
the row, and the next CDRAIN of the channel faults (R134); with the record the row's credit returns (R126). A lost source read of
a multicast row is one lost chunk, whatever the number of its destination cores: all of them lose it with one record (R135; log entry
59). -/
def loseChunk (s : State) (core n : Nat) (c : Chunk) : State :=
  let s := match c.bar with
    | none => s
    | some (k, off) =>
      if c.mcast = 0 then barrierStep s c.gang k off .lose []
      else ((upto 8).filter fun j => bitAt c.mcast j).foldl
        (fun s j => barrierStep s c.gang (clusterOfCore core * 8 + j) off .lose []) s
  let x := Map.getD (s.core core).chans c.chan {}
  let s := s.modCore core fun y => { y with
    chans := Map.set y.chans c.chan { x with lost := true }
    chunks := ((y.chunks.eraseIdx n).filter fun d => !(c.lost && d.lost && d.order == c.order && d.lo == c.lo)).map fun d =>
      if d.order = c.order then { d with paid := true } else d }
  let part := match s.gang? c.gang with
    | some g => g.part
    | none => 0
  postUnit s part (core * Config.slotsPerCore) 2 { cause := .dataLost, info := BitVec.ofNat 64 (c.chan + c.row * 256) }
    (if c.paid then none else some (.credit core c.chan))

/-- The count of a chunk at its barrier: a release at CLUSTER scope of the bytes, whatever the scope of the copy; a barrier publishes
nothing beyond the cluster (17 R300). -/
def countSig (core : Nat) (c : Chunk) : Sig :=
  if c.lines.isEmpty then []
  else [{ unit := core, scope := .cluster, lines := c.lines.map fun l => { line := l, unit := core, reach := .cluster } }]

/-- The lines of a landed chunk, kept for the CDRAIN that completes its copy; they reach the scope of the copy (17 R301). -/
def landedLines (core : Nat) (c : Chunk) (s : State) : State :=
  if c.lines.isEmpty then s else
  let x := Map.getD (s.core core).chans c.chan {}
  s.modCore core fun y => { y with chans := Map.set y.chans c.chan { x with
    landed := unionList x.landed (c.lines.map fun l => { line := l, unit := core, reach := c.scope }) } }

/-- The n-th chunk of a core lands: its bytes are performed, counted, and its barrier counts them (R132 R133 R300). No release
covers them before a CDRAIN (17 R301). -/
def landChunk (s : State) (core n : Nat) : State :=
  match (s.core core).chunks[n]? with
  | none => s
  | some c =>
    let ag := engineAgent core c.gang
    if c.lost || (c.data.isEmpty && spanLost s c.src c.ssize c.lo c.n) || spanLost s c.dst c.dsize c.lo c.n then
      loseChunk s core n c
    else
      let (s, bs) := if c.data.isEmpty then readSpan ag .si c.src c.ssize c.lo c.n s else (s, c.data)
      let kept := (s.core core).written
      let s := (upto c.n).foldl (fun s i => landElement ag c s i (blk bs (i * c.ssize) c.ssize)) s
      let s := landedLines core c (s.modCore core fun y => { y with written := kept })
      let s := match c.bar with
        | none => s
        | some (k, off) => barrierStep s c.gang k off (.land (c.n * c.dsize)) (countSig core c)
      dropChunk s core n c

/-- Chunks of a core land, oldest first. -/
def landChunks (core : Nat) : Nat → State → State
  | 0, s => s
  | k + 1, s => if (s.core core).chunks.isEmpty then s else landChunks core k (landChunk s core 0)

/-- Every chunk of a core lands. -/
def landAll (s : State) (core : Nat) : State := landChunks core (s.core core).chunks.length s

/-! TCOPY (R126 R127 R265). -/

/-- The blocks of a row: (first element, elements) for each aligned 256 B block of the destination (R132). -/
def rowBlocks (dst : Word) (dsize n : Nat) : List (Nat × Nat) :=
  let first := dst.toNat % 256 / dsize
  let per := 256 / dsize
  (upto (ceilDiv (first + n) per)).map fun b =>
    let lo := b * per - first
    let hi := Nat.min n ((b + 1) * per - first)
    (lo, hi - lo)

/-- Row q is translated, in the order of R127: the source's first and last byte, the destination's first and last. -/
def placeRow (s : State) (r : Shape) (q : Nat) : Except Trap (Span × List (Nat × Span)) :=
  let ag := s.agent
  match spanOf s ag .copySrc (r.srcRow q) (r.e 0 * r.ssize) with
  | .error t => .error t
  | .ok src =>
    let dsts := if r.mcast = 0 then [(0, r.dstRow q)] else r.targets.map fun k => (k, withCore (r.dstRow q) k)
    match dsts.mapM fun p => (spanOf s ag .copyDst p.2 (r.e 0 * r.dsize)).map fun sp => (p.1, sp) with
    | .error t => .error (if r.mcast = 0 then t else { t with addr := withCore t.addr (bitsOf (r.dstRow q).toNat 23 21) })
    | .ok ds => .ok (src, ds)

/-- The blocks of a row of a multicast with their source bytes, read once as the row is accepted; none for a block with a lost
line (R129 R134). -/
def readBlocks (ag : Agent) (src : Span) (size : Nat) : List (Nat × Nat) → State → State × List (Option (List Byte))
  | [], s => (s, [])
  | b :: rest, s =>
    let (s, x) := if spanLost s src size b.1 b.2 then (s, none)
      else ((readSpan ag .si src size b.1 b.2 s).1, some (readSpan ag .si src size b.1 b.2 s).2)
    let (s, xs) := readBlocks ag src size rest s
    (s, x :: xs)

/-- The chunks of an accepted row (R132); `data` holds the source bytes of the blocks of a multicast. -/
def rowChunks (s : State) (r : Shape) (e : Entry) (q : Nat) (src : Span) (ds : List (Nat × Span))
    (data : List (Option (List Byte))) : List Chunk :=
  let bar := e.z
  ds.flatMap fun p => (rowBlocks (r.dstRow q) r.dsize (r.e 0)).mapIdx fun i b =>
    { gang := s.me.id.gang, strand := s.me.sid, seq := e.seq, chan := e.chan, row := q
      scope := (Scope.ofCode r.scope).getD .core
      stag := r.srcTag.getD .raw, ctag := if r.ctag = 0 then .raw else r.convTag.getD .raw
      ssize := r.ssize, dsize := r.dsize, rop := r.rop, src := src, dst := p.2, lo := b.1, n := b.2
      bar := if bar = 0 then none
        else some (clusterOfCore s.myCore * 8 + (if r.mcast = 0 then bitsOf bar.toNat 23 21 else p.1), bitsOf bar.toNat 19 0)
      mcast := r.mcast
      data := (data[i]?.join).getD []
      order := (s.core s.myCore).rows
      lost := data[i]? == some none }

/-- The rows of a grant from position i up, at most n of them: accepted one after another (R127). -/
def acceptRows (r : Shape) : Nat → Nat → Entry → State → Lane
  | 0, _, e, s => .done (freeCredits s s.myCore e.chan e.credits)
  | n + 1, i, e, s =>
    let q := e.y.toNat + i
    if r.nrows ≤ q then .done (freeCredits s s.myCore e.chan e.credits)
    else
      let s := touchSpan (touchSpan s s.agent (r.srcRow q) (r.e 0 * r.ssize)) s.agent (r.dstRow q) (r.e 0 * r.dsize)
      match placeRow s r q with
      | .error t =>
        let s := freeCredits s s.myCore e.chan e.credits
        let s := s.modMe fun m => { m with v := { m.v with vstart := i } }
        .fault t (s.setHead { e with credits := 0 })
      | .ok (src, ds) =>
        let (s, data) := if r.mcast = 0 then (s, [])
          else readBlocks (engineAgent s.myCore s.me.id.gang) src r.ssize (rowBlocks (r.dstRow q) r.dsize (r.e 0)) s
        let s := s.modCore s.myCore fun y => { y with chunks := y.chunks ++ rowChunks s r e q src ds data, rows := y.rows + 1 }
        acceptRows r n (i + 1) { e with credits := e.credits - 1 } (if s.later then s else landAll s s.myCore)

/-- The credits an entry still lacks are taken once they are free (R126, 25 R347). -/
def takeCredits (s : State) (e : Entry) (need : Nat) : Option (State × Entry) :=
  let lack := need - e.credits
  let x := Map.getD (s.core s.myCore).chans e.chan {}
  if lack = 0 then some (s, e)
  else if x.held + lack ≤ Config.channelCredits then
    some (s.modCore s.myCore fun y => { y with chans := Map.set y.chans e.chan { x with held := x.held + lack } },
      { e with credits := need })
  else none

/-- The execution of a TCOPY entry at the copy engine (R265), up to the row that a pre-emption stops it at (25 R346). Operands: record,
cursor, barrier. An entry that still lacks credits waits for them, also where no row of its grant is left (R126); that its record is
checked before that wait is the model's choice (log entry 73). -/
def laneTcopy (e : Entry) (s : State) : Lane :=
  let ag := s.agent
  let fail := fun (t : Trap) (s : State) =>
    Lane.fault t ((freeCredits s s.myCore e.chan e.credits).setHead { e with credits := 0 })
  let s := touchSpan s ag e.x 128
  match spanOf s ag .vload e.x 128 with
  | .error t => fail t s
  | .ok sp =>
    let (s, bs) := readSpan ag .si sp 1 0 128 s
    let r := Shape.ofBytes bs
    match r.check s e.x e.z with
    | some n => fail { cause := .shape, sub := n } s
    | none =>
      if r.chan ≠ e.chan then fail { cause := .shape, sub := 1 } s
      else if e.z.toNat % 16 ≠ 0 then fail { cause := .misalign, addr := e.z } s
      else
        let i := s.me.v.vstart
        if e.vl = 0 then .done s
        else match takeCredits s e (e.vl - i) with
          | none => .wait s
          | some (s, e) => acceptRows r ((e.upTo.getD e.vl) - i) i e (s.setHead e)

/-- The grant of R126 on a channel of the strand's core: the grant and the credits it takes. -/
def copyGrant (s : State) (ch : Nat) : Nat × Nat :=
  let free := Config.channelCredits - (Map.getD (s.core s.myCore).chans ch {}).held
  let req := s.me.v.vl
  let g := if req = 0 then 0 else Nat.max 1 (Nat.min req free)
  (g, Nat.min g free)

/-! SBIND and SFREE (R138 R266). -/

/-- SBIND (R138): the record, then the binding, with the read position at 0. That MISALIGN comes before the form of a scratchpad BASE,
and names BASE for a bad stride too, is the model's choice (log entry 73). -/
def laneSbind (d : VReg) (t : Tag) (q : Nat) (e : Entry) (s : State) : Lane :=
  let n := e.wb + d.toNat
  let w := t.width / 8
  let ag := s.agent
  if (upto 4).any fun p => p != q && (s.me.v.stream p).bound && (s.me.v.stream p).slot == n then .fault { cause := .stream } s
  else
    let s := touch s ag e.x
    match check s ag .vload e.x 32 32 with
    | .error t => .fault t s
    | .ok p =>
      let (s, bs) := readPieces ag .si p.loc 4 s
      let base := BitVec.ofNat 64 (blk bs 0 8)
      let st := (upto 3).map fun k => sx 32 (blk bs (8 + 8 * k) 4)
      let ex := (upto 3).map fun k => blk bs (12 + 8 * k) 4
      if base.toNat % w ≠ 0 || st.any fun x => x % w != 0 then .fault { cause := .misalign, addr := base } s
      else
        match (if base.getLsbD 63 then (formTrap base).elim (spadLoc s ag base) Except.error else .ok (.spad 0 0 0)) with
        | .error t => .fault t s
        | .ok _ =>
          let x : StreamSlot := { bound := true, slot := n, tag := t, pos := 0, record := e.x, base := base, strides := st,
                                  extents := ex, ahead := [] }
          .done ((s.modMe fun m => { m with v := m.v.setStream q x }).setTag n t)

/-- SFREE (R266). -/
def laneSfree (q : Nat) (s : State) : Lane := .done (s.modMe fun m => { m with v := m.v.setStream q {} })

end Sys2Proof.Machine
end

