-- ==== Sys2Proof/Machine/Holders.lean ====
section
/-! DEFINITION. What the holders of a page do in a shoot-down before they acknowledge it (24_translation R338): which buffer
entries leave, the accesses that are performed first, replica lines and cached cells. -/

namespace Sys2Proof.Machine

/-- The leaf of a buffer entry maps a frame. -/
def TlbEntry.maps (t : TlbEntry) (f : Nat) : Bool :=
  leafBase t.leaf / 0x10000 == f || (t.big && leafBase t.leaf / 0x1000000 == f / 256)

/-- A shoot-down covers a buffer entry: one of the page, and for a clear or a course page one of the frame (07 R120, 24 R338
R341). -/
def Shoot.covers (x : Shoot) (t : TlbEntry) : Bool :=
  if x.clear || x.stream.isSome then x.frames.any fun f => t.maps f else
  t.part == x.part &&
    (if t.big then t.vpage == x.vpage / 256
     else if x.big then t.vpage / 256 == x.vpage / 256 else t.vpage == x.vpage)

/-- Two shoot-downs, or one and a page, meet. -/
def Shoot.meets (x : Shoot) (part vpage : Nat) (big : Bool) : Bool :=
  x.part == part && (if x.big || big then x.vpage / 256 == vpage / 256 else x.vpage == vpage)

/-- Buffer entries leave the TLBs of one die. -/
def dropEntries (s : State) (d : Nat) (gone : TlbEntry → Bool) : State :=
  { s with
    cores := s.cores.map fun p => if dieOfCore p.1 = d then (p.1, { p.2 with tlb := p.2.tlb.filter fun t => !gone t }) else p
    dies := s.dies.map fun p => if p.1 = d then (p.1, { p.2 with tlb := p.2.tlb.filter fun t => !gone t }) else p }

/-- Every plain access of the strand at a key is performed. -/
def drainStrand (s : State) (k : Nat) : State :=
  match s.strand? k with
  | none => s
  | some t => if t.ord.path.isEmpty then s else s.asStrand k drainPath

/-- The waiting APPMARKs of a page are performed: they reach its home before it is RELEASING (07 R110 R113). -/
def drainMarks (f : Nat) (s : State) : State :=
  (s.strands.filterMap fun p => if p.2.ord.path.any (·.mark == some f) then some p.1 else none).foldl drainStrand s

/-- Every pending reservation of a page is filled. -/
def fillAll (f : Nat) : Nat → State → State
  | 0, s => s
  | n + 1, s => if (s.app f).pending.isEmpty then s else fillAll f n (fillReservation s f 0)

/-- What a die does before it acknowledges: it drops the entries, performs its accesses, drops its replica lines and its
cached cells (R338). -/
def holderWork (s : State) (x : Shoot) (d : Nat) : State :=
  let s := dropEntries s d x.covers
  let s := (s.strands.map Prod.fst).foldl (fun s k => if dieOfKey k = d then drainStrand s k else s) s
  let s := (s.cores.map Prod.fst).foldl (fun s c => if dieOfCore c = d then landAll (drainStores c (fun _ => true) s) c else s) s
  let s := x.frames.foldl (fun s f => match Map.get? s.apps f with
    | none => s
    | some p => fillAll f p.pending.length s) s
  match Map.get? s.dies d with
  | none => s
  | some y => { s with dies := Map.set s.dies d { y with
      replicas := y.replicas.filter fun l => !x.frames.contains (l / 512)
      cells := y.cells.filter fun c => !x.frames.contains (c.1 / 4096) } }

end Sys2Proof.Machine
end

