-- ==== Sys2Proof/Machine/Course.lean ====
section
/-! DEFINITION. The course engines: stream headers and their binding (06_courses R84 to R88), appends, merges and expiry
(R89 to R91), combiners and mortar programs (R92 to R95), pages (R97 R98), loads (R99 to R103), and the entries HAPPEND,
HLOADR, HLOADE and HSYNC (14_ref_engines R267 to R270). -/

namespace Sys2Proof.Machine

/-! A stream's derived values. -/

/-- The bytes and bits of a record, and the elements in it. -/
def Stream.recBytes (x : Stream) : Nat := 2 ^ x.rsz
def Stream.recBits (x : Stream) : Nat := 8 * 2 ^ x.rsz
def Stream.elems (x : Stream) : Nat := x.recBits / x.tag.width

/-- Items a page holds (R97). -/
def Stream.perPage (x : Stream) : Nat := 65536 / x.recBytes

def Stream.course (x : Stream) (k : Nat) : Course := (x.courses[k]?).getD {}
def Stream.cnt (x : Stream) (k : Nat) : Nat := (x.course k).items.length
def Stream.cap (x : Stream) (k : Nat) : Nat := (x.caps[k]?).getD 0
def Stream.levels (x : Stream) : Nat := x.courses.length
def Stream.setCourse (x : Stream) (k : Nat) (c : Course) : Stream := { x with courses := x.courses.set k c }

/-- PEND: the courses over their CAP (R84 R90). -/
def Stream.pend (x : Stream) : Nat := ((upto x.levels).filter fun k => decide (x.cap k < x.cnt k)).length

/-- first[k] (R85). -/
def Stream.firstOf (x : Stream) (k : Nat) : Nat :=
  x.first + (((upto x.levels).filter fun j => decide (k < j)).map fun j => x.cnt j * 2 ^ j).sum

/-- The agent a course engine is: it keeps no L1 copies. -/
def courseAgent (x : Stream) : Agent := { part := x.part, level := .s, core := none, die := x.engine / 2, gang := 0 }

/-- A single-copy-atomic store of the engine (R85); to a lost line it writes nothing (27 R364; log entry 63). -/
def engineStore (s : State) (x : Stream) (pa n v : Nat) : State :=
  if s.lost pa n then s else
  writeAt s (courseAgent x) .uc (.gen pa .normal 0) (bytesOfNat n v)

/-- The stream changes: every engine field that differs is stored to the header (R85). -/
def putStream (s : State) (key : Nat) (x : Stream) : State :=
  match Map.get? s.streams key with
  | none => s
  | some o =>
    let s := { s with streams := Map.set s.streams key x }
    let st := fun (s : State) (off n old new : Nat) => if old = new then s else engineStore s x (x.pa + off) n new
    let s := st s 0 1 o.faulted.toNat x.faulted.toNat
    let s := st s 1 1 o.fcause x.fcause
    let s := st s 16 8 o.head x.head
    let s := (upto x.levels).foldl (fun s k => st s (72 + 2 * k) 2 (o.cnt k) (x.cnt k)) s
    let s := st s 104 8 o.first x.first
    st s 112 1 o.pend x.pend

/-! Combiners (R92) and mortar programs (R93 R94). -/

/-- One element of a built-in combiner (R92). -/
def combineElem (comb : Nat) (t : Tag) (a b : Nat) : Nat :=
  match comb with
  | 0 => if isInt t then (if intVal t a < intVal t b then b else a) else (fminmaxElem t true a b).1
  | 1 => if isInt t then (if intVal t b < intVal t a then b else a) else (fminmaxElem t false a b).1
  | 2 => if isInt t then (a + b) % 2 ^ t.width else (faddElem t .rne a b).1
  | 3 =>
    if isInt t then wrapInt t.width ((intVal t a + intVal t b) / 2)
    else (roundVal (arithFmt t) .rne ((addVal .rne ((arithFmt t).value a) ((arithFmt t).value b)).1.shift (-1))).1
  | 4 => a
  | _ => b

/-- The words a mortar program may hold: OP 0x00 to 0x23 in VV, VS or VI form, the two unary groups and mask logic, with
registers v0 to v15 (R93). -/
def mortarWord (w : Word32) : Option Instr :=
  let op := bitsOf w.toNat 31 26
  let fm := bitsOf w.toNat 25 24
  if (fm = 3 && op != 0 && op != 0x18 && op != 0x0A) || 0x23 < op then none
  else match decode w with
    | .error _ => none
    | .ok i => if (vectorFields i).all fun f => decide (f < 16) then some i else none

/-- The constant a VS operand selects (R94). -/
def mortarConst (consts : List Word) (i : Instr) : Word :=
  match captures i with
  | r :: _ => (consts[r.toNat]?).getD 0
  | [] => 0

/-- The words of a program run one after another (R94). -/
def mortarRun (c : Ctx) (consts : List Word) : List Word32 → VFile → Except Cause VFile
  | [], f => .ok f
  | w :: rest, f =>
    match mortarWord w with
    | none => .error .illegal
    | some i =>
      match arith { c with x := mortarConst consts i } i f with
      | .error e => .error e
      | .ok g => mortarRun c consts rest g

/-- combine(older, newer): the record, or the cause of a mortar fault (R92 R94 R95). -/
def Stream.combine (x : Stream) (a b : Nat) : Except Cause Nat :=
  if x.comb = 6 then
    let c : Ctx := { vl := x.elems, cap := x.recBits, iota := x.tag.width }
    let f : VFile := { masks := Vector.replicate 8 0, slots :=
      [(0, { bits := BitVec.ofNat 32768 a, tag := x.tag }), (1, { bits := BitVec.ofNat 32768 b, tag := x.tag })] }
    match mortarRun c x.consts x.mortar f with
    | .error e => .error e
    | .ok g => if (g.slot 2).tag = x.tag then .ok ((g.slot 2).bits.toNat % 2 ^ x.recBits) else .error .format
  else if x.comb = 4 then .ok a
  else if x.comb = 5 then .ok b
  else
    let w := x.tag.width
    .ok (((upto x.elems).map fun i => combineElem x.comb x.tag (elemAt a w i) (elemAt b w i) * 2 ^ (w * i)).sum)

/-! Pages (R97 R98). -/

/-- Course k can place one more item. -/
def Stream.canPut (x : Stream) (k : Nat) : Bool :=
  (match (x.course k).pages.getLast? with
    | some p => decide (p.written < x.perPage)
    | none => false) || !x.spare.isEmpty

/-- Where the i-th item of a course lies: its virtual and its physical address (R98). -/
def itemPlace (size : Nat) : List CoursePage → Nat → Option (Word × Nat)
  | [], _ => none
  | p :: rest, i =>
    if i < p.written - p.gone then
      some (p.va + BitVec.ofNat 64 ((p.gone + i) * size), p.pa + (p.gone + i) * size)
    else itemPlace size rest (i - (p.written - p.gone))

/-- A page of the stream's pool has been freed under it (07 R113; log entry 75). -/
def Stream.lacks (x : Stream) (pa : Nat) : Bool := x.freed.contains (frameOf pa)

/-- The two oldest items of course k lie in pages that the stream still has, so that they can be merged. -/
def Stream.mergeable (x : Stream) (k : Nat) : Bool :=
  [0, 1].all fun i => match itemPlace x.recBytes (x.course k).pages i with
    | some (_, pa) => !x.lacks pa
    | none => true

/-- The page of the pool that comes next: the address that entry NFREE − 1 of the record holds in memory, where NFREE is the engine's own
count of free pages, which no store to the record changes. An entry that names no free page that the stream still has gives none, and
the engine waits (R97; log entries 62 and 75). -/
def poolEntry (s : State) (x : Stream) : Option (Word × Nat) :=
  match x.entryPas[x.spare.length - 1]? with
  | some a => x.spare.find? fun q => q.1.toNat == natOfBytes (s.mem.read a 8) && !x.lacks q.2
  | none => none

/-- Course k has a place for one more item now: in its last page while that is not full and not freed, else in the next of the pool. -/
def placeable (s : State) (x : Stream) (k : Nat) : Bool :=
  match (x.course k).pages.getLast? with
  | some p => if p.written < x.perPage then !x.lacks p.pa else (poolEntry s x).isSome
  | none => (poolEntry s x).isSome

/-- The pages of a pool are engine-held while their stream is bound, the FREE ones too (R98). -/
def holdPages (held : Bool) (ps : List (Word × Nat)) (s : State) : State :=
  ps.foldl (fun s p => if (Map.get? s.apps (frameOf p.2)).isNone then s
    else { s with apps := Map.set s.apps (frameOf p.2) { s.app (frameOf p.2) with engineHeld := held } }) s

/-- A page is taken from the pool, and NFREE is written (R97). -/
def takePage (s : State) (x : Stream) (k : Nat) : State × Stream :=
  match poolEntry s x with
  | none => (s, x)
  | some (va, pa) =>
    let left := x.spare.filter (· != (va, pa))
    let s := engineStore s x (x.poolPa + 4) 4 left.length
    let c := x.course k
    let page : AppPage := { engineHeld := true }
    let here : CoursePage := { va := va, pa := pa, written := 0, gone := 0 }
    let x := { x with spare := left }
    ({ s with apps := Map.set s.apps (frameOf pa) page }, x.setCourse k { c with pages := c.pages ++ [here] })

/-- A page that has been shot down returns to the pool, empty and open: its address to the record, and NFREE (R97 R98). One that was
freed meanwhile does not. -/
def givePage (s : State) (x : Stream) (p : CoursePage) : State × Stream :=
  if x.lacks p.pa then (s, x) else
  let s := { s with apps := Map.set s.apps (frameOf p.pa) ({ engineHeld := true } : AppPage) }
  let s := match x.entryPas[x.spare.length]? with
    | some a => engineStore s x a 8 p.va.toNat
    | none => s
  let s := engineStore s x (x.poolPa + 4) 4 (x.spare.length + 1)
  (s, { x with spare := x.spare ++ [(p.va, p.pa)] })

/-- A page whose items are all gone is RELEASING while its holders are shot down: its dies at once unless the step leaves their
answers pending, its peers as they answer (R98, 24 R338; log entry 3). A page that was freed is the stream's no more. -/
def releasePage (s : State) (key : Nat) (x : Stream) (p : CoursePage) : State × Stream :=
  if x.lacks p.pa then (s, x) else
  let f := frameOf p.pa
  let s := drainMarks f s
  let s := { s with apps := Map.set s.apps f { s.app f with state := .releasing } }
  let h : Shoot := { owner := Config.dispatchBase + x.engine / 2, part := x.part, vpage := p.va.toNat / 0x10000, big := false,
                     frames := [f], free := false, clear := false, dies := upto 4, peers := Map.getD s.peerHolds f [],
                     since := s.now, stream := some key }
  if s.later then ({ s with shoots := s.shoots ++ [h] }, { x with releasing := x.releasing ++ [p] })
  else
    let s := (upto 4).foldl (fun s d => holderWork s h d) s
    if h.peers.isEmpty then givePage s x p
    else ({ s with shoots := s.shoots ++ [{ h with dies := [] }] }, { x with releasing := x.releasing ++ [p] })

/-- One item is placed behind course k; a page that becomes full is sealed (R98; log entry 63). TAIL and MARK of the page are multiples
of 8, as R105 has them: TAIL passes the last item, MARK stays below 8 bytes that are not whole (log entry 65). -/
def putItem (s : State) (x : Stream) (k v : Nat) : State × Stream :=
  let fresh := match (x.course k).pages.getLast? with
    | some p => decide (x.perPage ≤ p.written)
    | none => true
  let (s, x) := if fresh then takePage s x k else (s, x)
  let c := x.course k
  match c.pages.getLast? with
  | none => (s, x)
  | some p =>
    let n := p.written + 1
    let a := p.pa + p.written * x.recBytes
    let s := if s.lost a x.recBytes then s else physWrite s a (bytesOfNat x.recBytes v)
    let s := setApp s (frameOf p.pa)
      { state := if n = x.perPage then .sealing else .open_, tail := roundUp (n * x.recBytes) 8, mark := n * x.recBytes / 8 * 8,
        engineHeld := true }
    (s, x.setCourse k { items := c.items ++ [v], pages := c.pages.dropLast ++ [{ p with written := n }] })

/-- The oldest item of course k goes; with the last item of a sealed page the page is released (R98). -/
def dropItem (s : State) (key : Nat) (x : Stream) (k : Nat) : State × Stream :=
  let c := x.course k
  match c.pages with
  | [] => (s, x.setCourse k { c with items := c.items.drop 1 })
  | p :: rest =>
    if p.gone + 1 = x.perPage then
      releasePage s key (x.setCourse k { items := c.items.drop 1, pages := rest }) p
    else (s, x.setCourse k { items := c.items.drop 1, pages := { p with gone := p.gone + 1 } :: rest })

/-! The engine's steps (R89 R90 R91). -/

/-- The engine takes the next record of the oldest arrival: the first only while no HSYNC holds the stream and it is not
FAULTED (R89 R96), and none when its times would reach 2^63 (R83). -/
def canTake (x : Stream) : Bool :=
  match x.arrivals.find? fun a => !a.refused with
  | none => false
  | some a => decide (x.cnt 0 ≤ x.cap 0) && x.canPut 0 && (a.accepted || (x.holds.isEmpty && !x.faulted))

def takeRecord (s : State) (key : Nat) : State :=
  match Map.get? s.streams key with
  | none => s
  | some x =>
    if !canTake x || !placeable s x 0 then s else
    match x.arrivals.find? fun a => !a.refused with
    | none => s
    | some a =>
      let put := fun (b : Option Arrival) => x.arrivals.filterMap fun c =>
        if c.strand = a.strand ∧ c.seq = a.seq then b else some c
      if !a.accepted && decide (2 ^ 63 < x.head + a.records.length) then
        putStream s key { x with arrivals := put (some { a with refused := true }) }
      else
        match a.records with
        | [] => putStream s key { x with arrivals := put none }
        | r :: rest =>
          let (s, y) := putItem s { x with arrivals := put (if rest.isEmpty then none
            else some { a with records := rest, accepted := true }) } 0 r
          putStream s key { y with head := y.head + 1 }

/-- The course whose triggered work comes next, coarsest first (R90). A merge that has no page for its result waits for one, and finer
work goes on meanwhile (R98; log entry 66). -/
def Stream.work (x : Stream) : Option Nat :=
  if x.faulted then none else
  (upto x.levels).reverse.find? fun k => decide (x.cap k < x.cnt k)
    && (k + 1 == x.levels || (decide (x.cnt (k + 1) ≤ x.cap (k + 1)) && x.canPut (k + 1)))

/-- The merges the stream may still make in the current microsecond (R91); expiries are not counted (log entry 26). -/
def Stream.withinBudget (x : Stream) (now : Nat) : Bool :=
  x.budget == 0 || x.window != now / 1000 || decide (x.merges < x.budget)

def Stream.countMerge (x : Stream) (now : Nat) : Stream :=
  if x.window = now / 1000 then { x with merges := x.merges + 1 } else { x with window := now / 1000, merges := 1 }

/-- A merge in course k, in one step (R90); a mortar fault leaves the items and makes the stream FAULTED (R95). It waits where a page it
reads was freed, or none is to be had for its result. -/
def mergeStep (s : State) (key : Nat) (x : Stream) (k : Nat) : State :=
  match (x.course k).items with
  | a :: b :: _ =>
    if !x.mergeable k then s else
    match x.combine a b with
    | .error c => putStream s key { x with faulted := true, fcause := c.code, begun := none }
    | .ok v =>
      if !placeable s x (k + 1) then s else
      let (s, x) := putItem s { x with begun := none } (k + 1) v
      let (s, x) := dropItem s key x k
      let (s, x) := dropItem s key x k
      putStream s key x
  | _ => s

/-- A merge begins in the course whose work comes next (R101). -/
def beginMergeAt (s : State) (key : Nat) : State :=
  match Map.get? s.streams key with
  | none => s
  | some x =>
    match x.work with
    | some k =>
      if x.begun.isNone && k + 1 != x.levels && x.withinBudget s.now then
        { s with streams := Map.set s.streams key { (x.countMerge s.now) with begun := some k } }
      else s
    | none => s

/-- A merge that has begun is performed, or else the merge that comes next (R90 R91). -/
def mergeAt (s : State) (key : Nat) : State :=
  match Map.get? s.streams key with
  | none => s
  | some x =>
    match x.begun with
    | some k => mergeStep s key x k
    | none =>
      match x.work with
      | some k => if k + 1 != x.levels && x.withinBudget s.now then mergeStep s key (x.countMerge s.now) k else s
      | none => s

/-- The oldest item of the coarsest course expires (R90). -/
def expireAt (s : State) (key : Nat) : State :=
  match Map.get? s.streams key with
  | none => s
  | some x =>
    match x.work with
    | some k =>
      if k + 1 = x.levels && x.begun.isNone then
        let (s, x) := dropItem s key x k
        putStream s key { x with first := x.first + 2 ^ k }
      else s
    | none => s

/-- The engine works until nothing more can be done at this time. -/
def settleStream (key : Nat) : Nat → State → State
  | 0, s => s
  | n + 1, s =>
    match Map.get? s.streams key with
    | none => s
    | some x =>
      if canTake x then settleStream key n (takeRecord s key)
      else if x.begun.isSome then settleStream key n (mergeAt s key)
      else match x.work with
        | none => s
        | some k =>
          if k + 1 = x.levels then settleStream key n (expireAt s key)
          else if x.withinBudget s.now then settleStream key n (mergeAt s key)
          else s

/-- The work of an engine on a stream, unless it is left to the agenda (log entry 3). -/
def settleEngine (s : State) (key : Nat) : State :=
  match Map.get? s.streams key with
  | none => s
  | some x => if s.later then s else
    settleStream key (2 * ((x.arrivals.map fun a => a.records.length).sum + (x.courses.map fun c => c.items.length).sum) + 64) s

/-! Binding (R87 R88). -/

/-- Check 3's tags (R87). -/
def streamTag (comb : Nat) (b : Nat) : Option Tag :=
  if 16 ≤ b then none else
  match Tag.ofCode b with
  | some .e2m1 | some .e8m0 | none => none
  | some .raw => if comb ≤ 3 then none else some .raw
  | some t => some t

/-- The combiner accepts the tag (R92). -/
def combAccepts (comb : Nat) (t : Tag) : Bool := if comb ≤ 3 then isInt t || isFloat3 t else decide (comb ≤ 6)

def streamTrap (sub : Nat) : Trap := { cause := .stream, sub := sub }

/-- The fault of a check of binding that reads memory and cannot: DATA-LOST for a lost line, else the failure of the check (R87, 27 R364;
log entry 26). -/
def bindingFault (n : Nat) (t : Trap) : Trap := if t.cause = .dataLost then t else streamTrap n

/-- The physical addresses of n words of 8 bytes from a virtual address, or the fault of the first that the strand cannot load (R97). -/
def wordPlaces (s : State) (ag : Agent) (a : Word) : Nat → Except Trap (List Nat)
  | 0 => .ok []
  | n + 1 =>
    match wordPlaces s ag a n, check s ag .load (a + BitVec.ofNat 64 (8 * n)) 8 8 with
    | .ok l, .ok p => .ok (l ++ [p.loc.pa])
    | .error t, _ => .error t
    | _, .error t => .error t

/-- A page of the pool: empty, unsealed, of the home die (R97). That a page which is free in the pool of another bound stream fails the
check too is the model's choice (log entry 26). -/
def poolPage (s : State) (ag : Agent) (home : Nat) (va : Word) : Except Trap (Word × Nat) :=
  match check s ag (.appendOp false) va 0x10000 0x10000 with
  | .ok p =>
    let a := s.app (frameOf p.loc.pa)
    if a.state = .open_ && a.tail == 0 && !a.engineHeld && !isRemote p.loc.pa && stackOf p.loc.pa / 2 == home then
      .ok (va, p.loc.pa)
    else .error (streamTrap 7)
  | .error t => .error t

/-- Check 7: the pool record with its entries and pages, or its fault (R97). That a record which the strand cannot load, or one at a
scratchpad address, fails the check is the model's choice (log entry 26). -/
def poolOf (s : State) (ag : Agent) (pool : Word) (home need : Nat) :
    Except Trap (State × Nat × List Nat × List (Word × Nat)) :=
  let s := touch (touch s ag pool) ag (pool + 8)
  match (if pool.toNat % 8 = 0 && !pool.getLsbD 63 then wordPlaces s ag pool 2 else .error (streamTrap 7)) with
  | .ok [a, b] =>
    let w := natOfBytes (s.mem.read a 8)
    let n := bitsOf w 31 0
    if bitsOf w 63 32 != n || natOfBytes (s.mem.read b 8) != 0 || decide (n < need) then .error (streamTrap 7)
    else
      let s := (upto n).foldl (fun s i => touch s ag (pool + BitVec.ofNat 64 (16 + 8 * i))) s
      match wordPlaces s ag (pool + 16) n with
      | .error t => .error (bindingFault 7 t)
      | .ok es =>
        let vas := es.map fun e => BitVec.ofNat 64 (natOfBytes (s.mem.read e 8))
        let s := vas.foldl (fun s v => touch s ag v) s
        match vas.mapM (poolPage s ag home) with
        | .error t => .error (bindingFault 7 t)
        | .ok ps => if (ps.map Prod.snd).dedup.length = n then .ok (s, a, es, ps) else .error (streamTrap 7)
  | .ok _ => .error (streamTrap 7)
  | .error t => .error (bindingFault 7 t)

/-- The first fault of n loads of 8 bytes. -/
def wordTrap (s : State) (ag : Agent) (a : Word) (n : Nat) : Option Trap :=
  (upto n).findSome? fun i => match check s ag .load (a + BitVec.ofNat 64 (8 * i)) 8 8 with
    | .error t => some t
    | .ok _ => none

/-- Check 8: the words before the stop and the constants, or its fault (R93). Word 63 is checked and run where no stop comes before it, the
words after a stop are not looked at, and an image that cannot be loaded fails the check (log entry 26). -/
def mortarOf (s : State) (ag : Agent) (a : Word) : Except Trap (State × List Word32 × List Word) :=
  if a.toNat % 256 ≠ 0 then .error (streamTrap 8) else
  let s := touchSpan s ag a 768
  match wordTrap s ag a 96, spanOf s ag .load a 768 with
  | some t, _ => .error (bindingFault 8 t)
  | none, .error t => .error (bindingFault 8 t)
  | none, .ok sp =>
    let (s, bs) := readSpan ag .uc sp 8 0 96 s
    let ws := ((upto 64).map fun i => BitVec.ofNat 32 (blk bs (4 * i) 4)).takeWhile fun w => w != 0xF8000000
    if ws.all fun w => (mortarWord w).isSome then
      .ok (s, ws, (upto 64).map fun i => BitVec.ofNat 64 (blk bs (256 + 8 * i) 8))
    else .error (streamTrap 8)

/-- The first failing check of 2 to 6 on the header bytes (R87). -/
def headerCheck (h : List Byte) : Option Nat :=
  let f := fun o n => blk h o n
  let l := f 5 1
  let caps := (upto 16).map fun k => f (40 + 2 * k) 2
  if f 0 1 != 0 || f 1 1 != 0 || f 16 8 != 0 || f 72 32 != 0 || f 104 8 != 0 || f 112 1 != 0 || f 10 6 != 0 || f 113 15 != 0 then
    some 2
  else if f 2 1 = 0 || 12 < f 2 1 then some 3
  else match streamTag (f 4 1) (f 3 1) with
  | none => some 3
  | some t =>
    if 2 ^ f 2 1 % (t.width / 8) ≠ 0 then some 3
    else if 6 < f 4 1 || !combAccepts (f 4 1) t then some 4
    else if l = 0 || 16 < l || ((caps.take l).any fun c => c % 2 != 0 || c == 0) || ((caps.drop l).any fun c => c != 0) then some 5
    else if f 6 1 / 4 != 0 || f 7 1 < 2 || 4 < f 7 1 then some 6
    else none

/-- Checks 7 to 9 and the binding of a header whose other checks have passed (R87). -/
def bindNew (s : State) (ag : Agent) (va : Word) (pa engine : Nat) (h : List Byte) : Except Trap (State × Nat) :=
  let f := fun o n => blk h o n
  let l := f 5 1
  let caps := (upto l).map fun k => f (40 + 2 * k) 2
  let per := 65536 / 2 ^ f 2 1
  let need := (caps.map fun c => ceilDiv (c + 1) per + 1).sum
  match poolOf s ag (BitVec.ofNat 64 (f 24 8)) (f 6 1 % 4) need with
  | .error t => .error t
  | .ok (s, poolPa, es, ps) =>
    let m : Except Trap (State × List Word32 × List Word) :=
      if f 4 1 = 6 then mortarOf s ag (BitVec.ofNat 64 (f 32 8))
      else if f 32 8 = 0 then .ok (s, [], []) else .error (streamTrap 8)
    match m with
    | .error t => .error t
    | .ok (s, ws, cs) =>
      if Config.streamsPerEngine ≤ (s.streams.filter fun p => p.2.engine == engine).length then .error (streamTrap 9)
      else
        let x : Stream :=
          { part := ag.part, va := va, pa := pa, engine := engine, rsz := f 2 1, tag := (streamTag (f 4 1) (f 3 1)).getD .raw
            comb := f 4 1, scope := (Scope.ofCode (f 7 1)).getD .die, budget := f 8 2, caps := caps, poolPa := poolPa
            entryPas := es, spare := ps, mortar := ws, consts := cs, courses := List.replicate l {} }
        .ok (holdPages true ps { s with streams := Map.set s.streams (pa / 128) x }, pa / 128)

/-- The header lies in the memory of a peer, to whose engine the strand is one of another device (R88). -/
def peerHeader (s : State) (ag : Agent) (hdr : Word) : Bool :=
  !hdr.getLsbD 63 && (formTrap hdr).isNone && (match leafFor s ag hdr.toNat with
    | .ok (e, _, _) => leafTgt e == 2
    | .error _ => false)

/-- The stream a header address names, bound if it is not (R87 R88). A header that cannot be loaded as one of 128 bytes in a
NORMAL page of device memory fails check 1 (log entry 26). -/
def bindStream (s : State) (hdr : Word) : State × Except Trap Nat :=
  let ag := s.agent
  let s := touch s ag hdr
  if peerHeader s ag hdr then (s, .error (streamTrap 0)) else
  match check s ag .load hdr 128 128 with
  | .error t => (s, .error (bindingFault 1 t))
  | .ok p =>
    match p.loc with
    | .spad _ _ _ => (s, .error (streamTrap 1))
    | .gen pa ty _ =>
      if isRemote pa || ty != .normal then (s, .error (streamTrap 1))
      else match Map.get? s.streams (pa / 128) with
        | some x => if s.partOfStack x.engine = ag.part then (s, .ok (pa / 128)) else (s, .error (streamTrap 0))
        | none =>
          let (s, h) := readSpan ag .uc { first := p.loc, last := p.loc.plus 127, len := 128, head := 128 } 8 0 16 s
          let engine := 2 * (blk h 6 1 % 4) + bitsOf hdr.toNat 7 7
          if s.partOfStack engine ≠ ag.part then (s, .error (streamTrap 0))
          else match headerCheck h with
            | some n => (s, .error (streamTrap n))
            | none =>
              match bindNew s ag hdr pa engine h with
              | .error t => (s, .error t)
              | .ok (s, k) => (s, .ok k)

/-! Loads (R99 R101). -/

/-- The record of item i of course k over the stored items, by the canonical tree (R91). -/
def Stream.treeAt (x : Stream) : Nat → Nat → Except Cause Nat
  | 0, i => match ((x.course 0).items)[i - x.firstOf 0]? with
    | some v => .ok v
    | none => .error .stream
  | k + 1, i =>
    let stored := if x.firstOf (k + 1) ≤ i * 2 ^ (k + 1) then ((x.course (k + 1)).items)[i - x.firstOf (k + 1) / 2 ^ (k + 1)]? else none
    match stored with
    | some v => .ok v
    | none =>
      match x.treeAt k (2 * i), x.treeAt k (2 * i + 1) with
      | .ok a, .ok b => x.combine a b
      | .error e, _ => .error e
      | _, .error e => .error e

/-- The course of the stored item that contains t. -/
def Stream.courseOf (x : Stream) (t : Nat) : Nat :=
  ((upto x.levels).find? fun k => decide (x.firstOf k ≤ t) && decide (t < x.firstOf k + x.cnt k * 2 ^ k)).getD 0

/-- The span of course m at t lies in [FIRST, HEAD) and is a union of stored items: no coarser item meets it (R99). -/
def Stream.isUnion (x : Stream) (t m : Nat) : Bool :=
  let lo := t / 2 ^ m * 2 ^ m
  let hi := lo + 2 ^ m
  decide (x.first ≤ lo) && decide (hi ≤ x.head) && !((upto x.levels).any fun c =>
    decide (m < c) && decide (x.firstOf c < hi) && decide (lo < x.firstOf c + x.cnt c * 2 ^ c))

/-- The course of the finest synthesis at or below k (R99). -/
def Stream.resolved (x : Stream) (t k j : Nat) : Nat :=
  (((upto (k + 1 - j)).map fun d => k - d).find? fun m => x.isUnion t m).getD j

/-- The stored items that the answer for a time at a resolution is read from: (course, place in it) (R99 R101). -/
def Stream.reads (x : Stream) (t k : Nat) : List (Nat × Nat) :=
  if x.head ≤ t || t < x.first then []
  else
    let j := x.courseOf t
    if x.faulted || k ≤ j then [(j, (t - x.firstOf j) / 2 ^ j)]
    else
      let m := x.resolved t k j
      let lo := t / 2 ^ m * 2 ^ m
      (upto (m + 1)).flatMap fun c => ((upto (x.cnt c)).filter fun i =>
        decide (lo ≤ x.firstOf c + i * 2 ^ c) && decide (x.firstOf c + i * 2 ^ c < lo + 2 ^ m)).map fun i => (c, i)

/-- A load reads an item in a lost line, or in a page that was freed: its fault (27 R364, 07 R113; log entry 75). -/
def lostItem (s : State) (x : Stream) (times : List Nat) (k : Nat) : Option Trap :=
  if s.lostLines.isEmpty && x.freed.isEmpty then none else
  times.findSome? fun t => (x.reads t k).findSome? fun q =>
    match itemPlace x.recBytes (x.course q.1).pages q.2 with
    | some (va, pa) =>
      if x.lacks pa then some { cause := .notPresent, addr := va }
      else if s.lost pa x.recBytes then some { cause := .dataLost, addr := va } else none
    | none => none

/-- What a load returns for a time at a resolution: status, k′, data, and the cause when synthesis faulted (R99). -/
def Stream.decide (x : Stream) (t k : Nat) : Nat × Nat × Nat × Option Cause :=
  if x.head ≤ t then (3, k, 0, none)
  else if t < x.first then (4, k, 0, none)
  else
    let j := x.courseOf t
    let item := (((x.course j).items)[(t - x.firstOf j) / 2 ^ j]?).getD 0
    if x.faulted then (5, j, item, none)
    else if j = k then (0, k, item, none)
    else if k < j then (1, j, item, none)
    else
      let m := x.resolved t k j
      match x.treeAt m (t / 2 ^ m) with
      | .ok v => (2, m, v, none)
      | .error c => (5, j, item, some c)

/-- A merge that has begun and covers one of the times is performed first (R101): whether it covered each time and was performed, which
one that faults is not (R95). While it has no page for its result the load waits with it: nothing is answered. -/
def settleBegun (s : State) (key : Nat) (times : List Nat) : Option (State × List Bool) :=
  let none_ := times.map fun _ => false
  match Map.get? s.streams key with
  | none => some (s, none_)
  | some x =>
    match x.begun with
    | none => some (s, none_)
    | some k =>
      let lo := x.firstOf k
      let hit := times.map fun t => decide (lo ≤ t) && decide (t < lo + 2 * 2 ^ k)
      if !hit.contains true || !x.mergeable k then some (s, none_)
      else
        let s := mergeStep s key x k
        match Map.get? s.streams key with
        | none => some (s, none_)
        | some y => if y.begun.isSome then none else some (s, if y.cnt k < x.cnt k then hit else none_)

/-- The lines of sealed pages that a load reads an item from are read from the replica of the strand's die, which is refilled on a miss
(R101, 24 R340). -/
def readReplicas (s : State) (x : Stream) (times : List Nat) (k : Nat) : State :=
  times.foldl (fun s t => (x.reads t k).foldl (fun s q =>
    match itemPlace x.recBytes (x.course q.1).pages q.2 with
    | some (_, pa) => refillReplica s s.agent pa .append
    | none => s) s) s

/-- The descriptor of a load (03 R43). -/
def descriptor (status k : Nat) (after : Bool) : Nat := k % 16 + status * 256 + after.toNat * 4096

/-- A synthesis that faulted makes the stream FAULTED, and a merge that has begun is not performed any more (R95 R99). -/
def faultStream (s : State) (key : Nat) (c : Option Cause) : State :=
  match c, Map.get? s.streams key with
  | some c, some x => putStream s key { x with faulted := true, fcause := c.code, begun := none }
  | _, _ => s

/-! The entries (R267 to R270). -/

/-- HAPPEND (R267). The entry remembers in `credits` that its arrival has been sent. -/
def laneHappend (key : Nat) (b : VReg) (e : Entry) (held : Option Trap) (s : State) : Lane :=
  let s := if e.credits = 1 then settleEngine s key else s
  match Map.get? s.streams key with
  | none => .fault (streamTrap 0) s
  | some x =>
    let c := ctxFor s e
    let v := s.slot (c.slot b)
    let sid := s.me.sid
    let mine := x.arrivals.find? fun a => a.strand == sid && a.seq == e.seq
    let away := { x with arrivals := x.arrivals.filter fun a => !(a.strand == sid && a.seq == e.seq) }
    if e.credits = 1 then
      match mine with
      | none => .done s
      | some a =>
        if a.refused || (x.faulted && !a.accepted) then .fault (streamTrap 0) ((putStream s key away).setHead { e with credits := 0 })
        else .wait s
    else if x.faulted then .fault (streamTrap 0) s
    else
      let w := x.tag.width
      let n := c.vl * w / x.recBits
      guardLane (tagsThenLengths (v.tag == x.tag) (c.fits w && c.vl * w % x.recBits == 0 && n != 0)) held s fun s =>
        let s := drainPath s
        let recs := (upto n).map fun j => v.bits.toNat / 2 ^ (j * x.recBits) % 2 ^ x.recBits
        let x' := { x with arrivals := x.arrivals ++ [{ strand := sid, seq := e.seq, records := recs }]
                           sig := unionList x.sig (releaseSig s s.agent x.scope) }
        let s := settleEngine (putStream s key x') key
        match Map.get? s.streams key with
        | none => .done s
        | some y =>
          match y.arrivals.find? fun a => a.strand == sid && a.seq == e.seq with
          | none => .done s
          | some a =>
            if a.refused then
              .fault (streamTrap 0) (putStream s key { y with arrivals := y.arrivals.filter fun a => !(a.strand == sid && a.seq == e.seq) })
            else .wait (s.setHead { e with credits := 1 })

/-- The elements of one record written from element 0 up. -/
def writeRecord (x : Stream) (sl : Slot) (v : Nat) : Slot :=
  { sl.write x.tag.width ((upto x.elems).map fun i => (i, elemAt v x.tag.width i)) with tag := x.tag }

/-- HLOADR (R268). -/
def laneHloadr (key : Nat) (d : VReg) (e : Entry) (s : State) : Lane :=
  let s := settleEngine s key
  match Map.get? s.streams key with
  | none => .fault (streamTrap 0) s
  | some x =>
    let c := ctxFor s e
    let k := bitsOf c.x.toNat 6 0
    let t := c.y.toNat
    if 16 ≤ k then .fault (streamTrap 0) s
    else if c.cap < x.recBits then .fault { cause := .vlRange } s
    else
      match settleBegun s key [t] with
      | none => .wait s
      | some (s, hit) =>
      let x := (Map.get? s.streams key).getD x
      match lostItem s x [t] k with
      | some f => .fault f s
      | none =>
      let s := readReplicas s x [t] k
      let (status, k', v, bad) := x.decide t k
      let s := faultStream s key bad
      let n := c.slot d
      let s := s.putSlot n (writeRecord x (s.slot n) v)
      let s := s.modMe fun m => { m with hspan := BitVec.ofNat 64 (descriptor status k' (hit.headD false)) }
      .done (acquire s s.agent x.scope x.sig)

/-- HLOADE (R269). -/
def laneHloade (key : Nat) (d b : VReg) (e : Entry) (held : Option Trap) (s : State) : Lane :=
  let s := settleEngine s key
  match Map.get? s.streams key with
  | none => .fault (streamTrap 0) s
  | some x =>
    let c := ctxFor s e
    let k := bitsOf c.x.toNat 6 0
    let vb := s.slot (c.slot b)
    if 16 ≤ k then .fault (streamTrap 0) s
    else guardLane (tagsThenLengths (x.recBits == x.tag.width && isOffset vb.tag) (c.fits 32)) held s fun s =>
      let times := (upto c.vl).map fun i => (c.y + BitVec.ofNat 64 (vb.elem 32 i)).toNat
      match settleBegun s key times with
      | none => .wait s
      | some (s, hit) =>
      let x := (Map.get? s.streams key).getD x
      match lostItem s x times k with
      | some f => .fault f s
      | none =>
      let s := readReplicas s x times k
      let rs := times.map fun t => x.decide t k
      let s := faultStream s key (rs.findSome? fun r => r.2.2.2)
      let n := c.slot d
      let s := s.putSlot n { (s.slot n).write x.tag.width (rs.mapIdx fun i r => (i, r.2.2.1)) with tag := x.tag }
      let ds := (rs.zip hit).mapIdx fun i r => (i, descriptor r.1.1 r.1.2.1 r.2)
      let s := s.putSlot (n + 1) { (s.slot (n + 1)).write 32 ds with tag := .n32 }
      .done (acquire s s.agent x.scope x.sig)

/-- A wait in the lanes that began at `since` has lasted WTO ns (11 R180). -/
def timedOut (s : State) (since : Option Nat) : Bool :=
  s.me.wto != 0 && (match since with
    | none => false
    | some t => decide (t + s.me.wto.toNat ≤ s.now))

/-- HSYNC (R96 R270). That one which waits already completes, with its acquire, when its stream becomes FAULTED is the model's choice (log
entry 83). -/
def laneHsync (key : Nat) (e : Entry) (s : State) : Lane :=
  match Map.get? s.streams key with
  | none => .fault (streamTrap 0) s
  | some x =>
    let me := (s.me.sid, e.seq)
    if x.faulted then .done (acquire (putStream s key { x with holds := x.holds.filter (· != me) }) s.agent x.scope x.sig)
    else
      let s := putStream s key { x with holds := if x.holds.contains me then x.holds else x.holds ++ [me] }
      let s := settleEngine s key
      let x := (Map.get? s.streams key).getD x
      let free := fun (s : State) =>
        settleEngine (putStream s key { x with holds := x.holds.filter (· != me) }) key
      if x.faulted || (x.pend == 0 && !x.arrivals.any fun a => a.accepted) then
        .done (acquire (free s) s.agent x.scope x.sig)
      else if timedOut s s.me.wait.laneSince then .done (free s)
      else .wait (s.modMe fun m => { m with wait := { m.wait with laneSince := some (m.wait.laneSince.getD s.now) } })

end Sys2Proof.Machine
end

