-- ==== Sys2Proof/Machine/Lanes.lean ====
section
/-! DEFINITION. The lane sequencer of a strand (02_execution R11 R13 R14 R21): what each kind of entry does, its completion
with the flags it raised, and its faults at VCP; with them the entries VWAITALL, VWAITANY (13 R254) and VTOPK (14 R272). -/

namespace Sys2Proof.Machine

/-- What an instruction answers. -/
abbrev Out := Host.Outcome State Fault Refusal

/-! The watches. -/

/-- The acquires of a watch: the words that met their value (R254). -/
def acquireMet (s : State) : List (Place × Bool) → State
  | [] => s
  | (p, m) :: rest => acquireMet (if m then acquire s s.agent .device (sigOf s p.loc 4) else s) rest

/-- VWAITALL and VWAITANY (R254). -/
def laneVwait (all : Bool) (d : MReg) (b : VReg) (e : Entry) (held : Option Trap) (s : State) : Lane :=
  let c := ctxFor s e
  let x := s.slot (c.slot b)
  let y := s.slot (c.slot b + 1)
  guardLane (tagsThenLengths (isOffset x.tag && isOffset y.tag) (c.fits 32)) held s fun s =>
    if c.vl = 0 then .done s else
    let l := (upto c.vl).map fun i => (i, offsetAddr c.x x i, 4)
    let s := touchAll s.agent (l.map fun p => p.2.1) s
    match placeAll s s.agent .vload l with
    | .error t => .fault t s
    | .ok ps =>
      let s := follow (ps.map fun p => (p.2.loc, 4)) s
      let (s, es) := readEach s.agent .uc 4 ps s
      let met := es.map fun p => p.2 == y.elem 32 p.1
      if (if all then met.all id else met.any id) || timedOut s s.me.wait.laneSince then
        let s := putFile s ((fileOf s).setMaskBits d (met.mapIdx fun i m => (i, !m)))
        .done (acquireMet s ((ps.map Prod.snd).zip met))
      else .wait (s.modMe fun m => { m with wait := { m.wait with laneSince := some (m.wait.laneSince.getD s.now) } })

/-! VTOPK (R272). -/

/-- The key of an element as a number: −0 below +0, every NaN below every number. -/
def topKey (t : Tag) (x : Nat) : Int :=
  if isInt t then intVal t x
  else
    let f := arithFmt t
    let mag := x % 2 ^ (f.eb + f.mb)
    if f.value x == .nan then -(2 ^ 40) else if bitAt x (f.eb + f.mb) then -(mag : Int) - 1 else mag

/-- How many elements rank before the i-th of a list of keys. -/
def ranksBefore (keys : List Int) (i : Nat) (k : Int) : Nat :=
  ((keys.zipIdx).filter fun p => decide (k < p.1) || (p.1 == k && decide (p.2 < i))).length

/-- VTOPK: the mask of the k largest (R272). -/
def laneVtopk (d : MReg) (a : VReg) (e : Entry) (s : State) : Lane :=
  let c := ctxFor s e
  let x := s.slot (c.slot a)
  let w := x.tag.width
  guardLane (tagsThenLengths (isInt x.tag || isFloat3 x.tag) (c.fits w)) none s fun s =>
    let keys := (upto c.vl).map fun i => topKey x.tag (x.elem w i)
    let bits := keys.mapIdx fun i k => (i, decide (ranksBefore keys i k < e.x.toNat))
    .done (putFile s ((fileOf s).setMaskBits d bits))

/-! One entry. -/

/-- A lane instruction on the registers alone, with the scalar it returns (02 R13). -/
def laneArith (e : Entry) (held : Option Trap) (s : State) : Lane :=
  match arith (ctxFor s e) e.instr (fileOf s) with
  | .error c => .fault { cause := c } s
  | .ok f =>
    match held with
    | some t => .fault t s
    | none =>
      let s := putFile s f
      let s := match laneWrites e.instr, f.out with
        | d :: _, some x => s.wr d x
        | _, _ => s
      .done s f.flags

/-- The header address a course entry names, from its first operand (14 R267 to R270). -/
def courseHeader (e : Entry) : Option Word :=
  match e.instr with
  | .happend _ _ => some e.x
  | .hloade _ _ _ | .hloadr _ _ _ | .hsync _ => some (e.x &&& ~~~(127 : Word))
  | _ => none

/-- The meaning of an entry whose pops are done; `key` is its stream, for a course entry. -/
def laneBody (key : Nat) (e : Entry) (held : Option Trap) (s : State) : Lane :=
  match e.instr with
  | .vld m v _ b t u => laneVld m v b t u e held s
  | .vst m v _ b u => laneVst m v b u e held s
  | .vldx _ v _ b t => laneVldx v b t e held s
  | .vstx _ v _ b => laneVstx v b e held s
  | .vldb m v _ b t => laneVldb m v b t e held s
  | .vredm _ v _ b o => laneVredm v b o e held s
  | .mrow d a _ => laneMrow d a e held s
  | .mrows m n a _ => laneMrows m n a e held s
  | .mdrain d _ ef t => laneMdrain d ef t e held s
  | .mzero _ _ => laneMzero e s
  | .twrow d a _ => laneTwrow d a e held s
  | .trcol d a _ => laneTrcol d a e held s
  | .tlds d _ => laneTlds d e s
  | .tldm d _ _ => laneTldm d e s
  | .tset d t _ => laneTset d t e s
  | .tcopy _ _ _ => laneTcopy e s
  | .sbind d _ t q => laneSbind d t q.toNat e s
  | .sfree q => laneSfree q.toNat s
  | .happend _ b => laneHappend key b e held s
  | .hloade d _ b => laneHloade key d b e held s
  | .hloadr d _ _ => laneHloadr key d e s
  | .hsync _ => laneHsync key e s
  | .vapp d _ b => laneVapp d b e held s
  | .vpropose d _ b => laneVpropose d b e held s
  | .vwaitall d _ b => laneVwait true d b e held s
  | .vwaitany d _ b => laneVwait false d b e held s
  | .vtopk d a _ => laneVtopk d a e s
  | _ => laneArith e held s

/-- Binding faults, pops, then the entry (03 R40, 08 R139). That STREAM comes before FORMAT and VL-RANGE also for the words of the vector
format is the model's choice (log entry 73). -/
def lanePopped (key : Nat) (e : Entry) (s : State) : Lane :=
  match bindingTrap s.me.v e with
  | some t => .fault t s
  | none =>
    match popAll s e with
    | .wait s => .wait s
    | .ready before after held => (laneBody key e held after).unpop before e

/-- One entry of the strand whose turn it is. An entry interrupted with VSTART at vl is complete (12 R207). -/
def laneEntry (e : Entry) (s : State) : Lane :=
  if 0 < s.me.v.vstart ∧ e.vl ≤ s.me.v.vstart then .done s
  else
    match courseHeader e with
    | none => lanePopped 0 e s
    | some hdr =>
      match bindStream s hdr with
      | (s, .error t) => .fault t s
      | (s, .ok key) => lanePopped key e s

/-! The queue. -/

/-- The logical groups at a place in the queue: the groups now, with those that leave at the markers behind it (02 R21). -/
def groupsAt (q : List QItem) (now : List Nat) : List Nat :=
  q.foldr (fun i g => match i with
    | .dropGroups keep freed => g.take keep ++ freed
    | .entry _ | .dropSlots _ _ => g) now

/-- Some lane group an entry of the strand whose turn it is runs on is asleep (23 R329). -/
def groupsAsleep (s : State) (e : Entry) : Bool :=
  let gs := (s.core s.myCore).groups
  ((groupsAt s.me.queue s.me.v.groups).take e.lg).any fun g => match gs[g]? with
    | some x => x.asleep
    | none => false

/-- The oldest entry leaves the queue with its flags in FCSR; a strand that sleeps on it wakes (02 R11 R12, 03 R42 R44). -/
def completeEntry (s : State) (e : Entry) (flags : Nat) : State :=
  let s := s.modMe fun t => { t with
    fcsr := orFlags t.fcsr flags
    queue := t.queue.drop 1
    v := { t.v with vstart := 0, vdone := 0, fppend := false }
    wait := if sleepEntry e.instr then {} else { t.wait with laneSince := none } }
  settleMarkers s s.me.queue

/-- The end of an entry: completion, or FP at VCP once every result is written (03 R42, 12 R207, 25 R347). -/
def finishEntry (s : State) (e : Entry) (flags : Nat) : State :=
  if s.me.v.fppend || trapsFp s.me.fcsr s.me.fd flags then
    let s := s.modMe fun t => { t with fcsr := orFlags t.fcsr flags, v := { t.v with vstart := e.vl, vdone := 0, fppend := false } }
    takeTrap 1 (encode e.instr).toNat { cause := .fp } (drainLoads s)
  else completeEntry s e flags

/-- The lane sequencer takes one entry; the answer says whether it left the queue or stopped the strand. -/
def laneTake (s : State) : State × Bool :=
  match s.me.queue with
  | .entry e :: _ =>
    let e := e.whole
    if groupsAsleep s e then (s, false)
    else
      match laneEntry e s with
      | .done s flags => (finishEntry s e flags, true)
      | .wait s => (s, false)
      | .fault t s => (takeTrap 1 (encode e.instr).toNat t (drainLoads s), true)
  | _ => (s, false)

/-- The lane sequencer takes one entry, but a strand that waits for the answer to a request of its own does not stop before the
answer has come (11 R181). -/
def laneStep (s : State) : State × Bool :=
  let r := laneTake s
  if s.me.wait.mark.isSome && r.1.me.status == .stopped then (s, false) else r

/-! The units that the strands of a core share (02 R11). -/

/-- The places of a core in ascending order, after one of them (02 R11, 23 R330). -/
def slotsAfter (core slot : Nat) : List Nat :=
  (upto Config.slotsPerCore).map fun i => core * Config.slotsPerCore + (slot + 1 + i) % Config.slotsPerCore

/-- The unit of the core that an entry shares with the entries of other strands: 0 the matrix unit, 1 the copy engine, 2 the
scratchpad bank units (02 R11, 14 R255). -/
def sharedUnit (e : Entry) : Option Nat :=
  match e.instr with
  | .mrow _ _ _ | .mrows _ _ _ _ | .mdrain _ _ _ _ | .mzero _ _ | .twrow _ _ _ | .trcol _ _ _ | .tlds _ _ | .tldm _ _ _
  | .tset _ _ _ => some 0
  | .tcopy _ _ _ | .sbind _ _ _ _ | .sfree _ => some 1
  | .vld _ _ _ _ _ _ | .vst _ _ _ _ _ | .vldx _ _ _ _ _ | .vstx _ _ _ _ | .vldb _ _ _ _ _ | .vredm _ _ _ _ _
  | .vwaitall _ _ _ | .vwaitany _ _ _ => if e.x.getLsbD 63 then some 2 else none
  | _ => none

/-- The unit that the oldest entry of a strand needs. -/
def neededUnit (t : Strand) : Option Nat :=
  match t.queue with
  | .entry e :: _ => if t.status == .ready then sharedUnit e else none
  | _ => none

/-- The strand whose oldest entry a unit has begun and not finished. -/
def unitHolder (s : State) (u : Nat) : Option Nat :=
  match Map.get? (s.core s.myCore).unitHeld u with
  | none => none
  | some (slot, seq) =>
    let k := s.myCore * Config.slotsPerCore + slot
    match s.strand? k with
    | some t => if neededUnit t = some u ∧ t.vcp = seq then some k else none
    | none => none

/-- The strands that a unit comes to before this one: the one whose entry it has begun, since it takes one instruction at a time; else
those in ascending place after the one it served last (02 R11). -/
def aheadAtUnit (s : State) (u : Nat) : List Nat :=
  match unitHolder s u with
  | some k => if k = s.key then [] else [k]
  | none =>
    ((slotsAfter s.myCore (Map.getD (s.core s.myCore).unitLast u (Config.slotsPerCore - 1))).takeWhile (· != s.key)).filter fun k =>
      match s.strand? k with
      | some t => neededUnit t == some u
      | none => false

/-- A unit takes an entry of the strand whose turn it is. -/
def takenBy (u : Option Nat) (s : State) : State :=
  match u with
  | none => s
  | some n => s.modCore s.myCore fun x => { x with
      unitLast := Map.set x.unitLast n (slotOfKey s.key), unitHeld := Map.erase x.unitHeld n }

/-- The unit that the oldest entry of the strand needs has begun it, and takes no other before its end. -/
def beginAtUnit (s : State) : State :=
  match neededUnit s.me with
  | none => s
  | some n => (takenBy (some n) s).modCore s.myCore fun x => { x with unitHeld := Map.set x.unitHeld n (slotOfKey s.key, s.me.vcp) }

/-- A step of the lanes of the strand whose turn it is; the unit that takes its entry has served its place. -/
def servedStep (s : State) : State × Bool :=
  match laneStep (takenBy (neededUnit s.me) s) with
  | (t, true) => (t, true)
  | (_, false) => laneStep s

/-- The first of some strands whose oldest entry moves; the turn stays where it is. -/
def firstServed (s : State) : List Nat → Option State
  | [] => none
  | k :: rest =>
    match s.focus? k with
    | none => firstServed s rest
    | some t =>
      match servedStep t with
      | (t, true) => t.focus? s.key
      | (_, false) => firstServed s rest

/-- Where the oldest entry of the strand needs a shared unit: the entry of another strand that the unit takes first. A unit that is in
the middle of another strand's entry takes no other. -/
def servedAhead (s : State) : Option State := (neededUnit s.me).bind fun u =>
  match aheadAtUnit s u with
  | [] => none
  | l => firstServed s l <|> if (unitHolder s u).isSome then some s else none

/-- The entry at VCP does a part of its work, if there is some to do: its unit serves first the strands whose round it is, and has then
begun it (02 R11). -/
def inRound (part : State → Option State) (s : State) : State :=
  match servedAhead s with
  | some t => t
  | none =>
    match part s with
    | some t => beginAtUnit t
    | none => s

/-- The lanes of the strand run until the queue is empty, an entry waits, or the strand stops; a shared unit serves first the strands
whose round it is. -/
def runLanes : Nat → State → State
  | 0, s => s
  | n + 1, s =>
    if s.me.status == .stopped then s else
    match servedAhead s with
    | some t => runLanes n t
    | none =>
      let (s, moved) := servedStep s
      if moved then runLanes n s else s

/-- The oldest entry of the strand leaves its queue, once its unit has served those whose round comes first; the answer says whether it
did. -/
def runHead : Nat → State → State × Bool
  | 0, s => (s, false)
  | n + 1, s =>
    match servedAhead s with
    | some t => runHead n t
    | none => servedStep s

/-- The entries in the queues of the strands of a core. -/
def queuedAt (s : State) (core : Nat) : Nat :=
  ((s.strands.filter fun p => coreOfKey p.1 == core).map fun p => p.2.queue.length).sum

def runQueue (s : State) : State := runLanes (queuedAt s s.myCore) s

/-- The lanes of a strand go on, by one entry or as far as they come; a shared unit serves first the strands whose round it is. -/
def lanesTurn (s : State) : State :=
  if s.later then (servedAhead s).getD (servedStep s).1 else runQueue s

/-! What decode waits for (02 R13 R14). -/

/-- A queued entry will write one of the registers. -/
def willWrite (q : List QItem) (rs : List SReg) : Bool :=
  (entriesOf q).any fun e => (laneWrites e.instr).any fun r => r != 0 && rs.contains r

/-- A load that is not yet performed will write one of the registers (15 R277 R284). -/
def loadDue (q : List PendAccess) (rs : List SReg) : Bool :=
  q.any fun p => match p.load with
    | none => false
    | some l => l.reg != 0 && rs.contains l.reg

/-- One of the registers is still to be written by the strand's own earlier work. -/
def regsDue (s : State) (rs : List SReg) : Bool := willWrite s.me.queue rs || loadDue s.me.ord.path rs

/-- The strand goes on once `busy` no longer holds: its loads are performed and the lanes run first, unless they are left to
the agenda; while it still holds, the strand stays at the instruction (02 R13; log entry 3). -/
def afterLanes (busy : State → Bool) (s : State) (k : State → State) : State :=
  if !busy s then k s
  else if s.later then s
  else
    let s := runQueue (drainLoads s)
    if s.me.status == .stopped || busy s then s else k s

/-- A scalar instruction that names registers. -/
def named (rs : List SReg) (s : State) (k : State → State) : State := afterLanes (fun s => regsDue s rs) s k

/-- Older entries are queued, or loads are not performed yet. -/
def queueBusy (s : State) : Bool := !(entriesOf s.me.queue).isEmpty || s.me.ord.path.any (·.isLoad)

/-- An instruction that waits for an empty queue; its strand's loads are performed by then. -/
def emptied (s : State) (k : State → State) : State := afterLanes queueBusy s k

/-- A fault at the strand's PC is reported; a lost chunk is reported once (08 R134). -/
def raiseFault (f : KeptFault) (s : State) : State :=
  takeTrap 0 f.word f.trap (match f.chan with
    | none => s
    | some c => s.modCore s.myCore fun y => { y with chans := Map.set y.chans c { Map.getD y.chans c {} with lost := false } })

/-- The strand stops decoding with a fault that it keeps; its waiting APPMARKs read no later MARK than the check of a load that found
APPEND-BEYOND (07 R110). -/
def keepFault (f : KeptFault) (s : State) : State :=
  (drainPicked (·.mark.isSome) s).modMe fun t => { t with wait := { laneSince := t.wait.laneSince, fault := some f } }

/-- A fault at the strand's PC: it is kept until the older entries have ended, whatever becomes of its cause, and an older entry that
faults is reported alone (02 R14). -/
def faultAt (f : KeptFault) (s : State) : State := emptied (if queueBusy s then keepFault f s else s) (raiseFault f)

/-- A fault of a word at the strand's PC. -/
def scalarTrap (i : Instr) (t : Trap) (s : State) : State := faultAt { word := (encode i).toNat, trap := t } s

/-- A word that a Fliven strand does not decode (22 R304). -/
def computeOnly (i : Instr) (s : State) (k : State → State) : State :=
  if s.me.fliven then scalarTrap i { cause := .illegal } s else k s

/-- The strand stays at an instruction that it has decoded, and whose end is still to come. -/
def holdAt (i : Instr) (s : State) : State := s.modMe fun t => { t with wait := { t.wait with on_ := some i } }

/-- The strand begins to sleep in an instruction now, or sleeps on (11 R180). -/
def sleepNow (i : Instr) (s : State) : State :=
  s.modMe fun t => { t with wait := { t.wait with since := some (t.wait.since.getD s.now), on_ := some i } }

/-! Pushing an entry. -/

/-- The decode checks of a vector or engine word: registers within the allotment (03 R32, 10 R171), the matrix words only
in a gang that holds the matrix state (03 R39), none of them on a Fliven strand (22 R304). -/
def decodeTrap (s : State) (i : Instr) (matrix : Bool) : Option Trap :=
  if s.me.fliven then some { cause := .illegal }
  else if matrix && !s.me.id.mx then some { cause := .illegal }
  else if (vectorFields i).any fun f => decide (127 < f) || decide (s.me.v.valc ≤ s.me.v.wb + f) then some { cause := .registerRange }
  else none

/-- A captured scalar, 0 for none. -/
def capture (s : State) (rs : List SReg) (n : Nat) : Word :=
  match rs[n]? with
  | some r => s.rd r
  | none => 0

/-- The entry of a word as it is decoded (02 R9 R10 R12, 25 R348). -/
def entryFor (s : State) (i : Instr) : Entry :=
  let rs := captures i
  { instr := i, seq := s.me.seqNext, vl := s.me.v.vl, lg := s.me.v.lg, x := capture s rs 0, y := capture s rs 1,
    z := capture s rs 2, vw := s.me.v.vw, wb := s.me.v.wb }

/-- The entry stands behind the queue and decode goes on. -/
def pushEntry (s : State) (e : Entry) : State :=
  (s.modMe fun t => { t with queue := t.queue ++ [.entry e], seqNext := (t.seqNext + 1) % 2 ^ 32 }).retire

/-- The strand sleeps, or sleeps on, until the entry it sleeps on completes (13 R254, 14 R270). -/
def sleepOn (s : State) : State :=
  s.modMe fun t => { t with wait := { t.wait with since := some (t.wait.since.getD s.now) } }

/-- What follows a push: the lanes run, unless they are left to the agenda (log entry 3). -/
def afterPush (s : State) : State := if s.later then s else runQueue s

/-- Decode has to wait before it pushes: the queue is full, or a named scalar is still to come (02 R13). -/
def pushBusy (i : Instr) (s : State) : Bool :=
  decide (Config.queueSize ≤ (entriesOf s.me.queue).length) || regsDue s (captures i ++ laneWrites i)

/-- A vector or engine word: decode checks, then its entry (02 R9 R13). -/
def pushWord (i : Instr) (matrix : Bool) (s : State) : State :=
  match decodeTrap s i matrix with
  | some t => scalarTrap i t s
  | none => afterLanes (pushBusy i) s fun s => afterPush (pushEntry s (entryFor s i))

/-- A word whose entry puts the strand to sleep. -/
def pushSleep (i : Instr) (s : State) : State :=
  match decodeTrap s i false with
  | some t => scalarTrap i t s
  | none => afterLanes (pushBusy i) s fun s =>
      afterPush (sleepOn (pushEntry s (entryFor s i)))

end Sys2Proof.Machine
end

