-- ==== Sys2Proof/Machine/Engine.lean ====
section
/-! DEFINITION. The words of the VE group (10_encoding R162): matrix, tile, copy, stream, history, append, once, watch and
top-k. Each is checked at decode and pushed; what its entry does stands in Matrix, Copy, Course, Homes and Lanes. -/

namespace Sys2Proof.Machine

/-! TCOPY takes its grant at decode (08_copies R126). -/

/-- The channel byte of the record is read, the grant is taken, and the entry carries the grant as its length (R126 R265). That the read
is one of request type OWN, as that of an LDB written without one (R234), is the model's choice (log entry 30). -/
def copyWord (d a b : SReg) (s : State) : State :=
  let i : Instr := .tcopy d a b
  let adr := s.rd d + 5
  let s := touch s s.agent adr
  match check s s.agent .load adr 1 1 with
  | .error t => scalarTrap i t s
  | .ok p =>
    let (s, bs) := scalarRead s .own p.loc 1
    let ch := natOfBytes bs % 8
    let (g, credits) := copyGrant s ch
    let e := entryFor s i
    let x := Map.getD (s.core s.myCore).chans ch {}
    let s := s.modCore s.myCore fun y => { y with chans := Map.set y.chans ch { x with held := x.held + credits } }
    let s := s.modMe fun t => { t with v := { t.v with vl := g } }
    afterPush (pushEntry s { e with vl := g, chan := ch, credits := credits })

/-- TCOPY (R265). -/
def execTcopy (d a b : SReg) (s : State) : Out :=
  let i : Instr := .tcopy d a b
  .next (match decodeTrap s i false with
    | some t => scalarTrap i t s
    | none => afterLanes (pushBusy i) s (copyWord d a b))

/-- MROW (R257). -/
def execMrow (d : TReg) (a : VReg) (b : SReg) (s : State) : Out :=
  .next (pushWord (.mrow d a b) true s)

/-- MROWS (R258). -/
def execMrows (m : MReg) (t : TReg) (a : VReg) (b : SReg) (s : State) : Out :=
  .next (pushWord (.mrows m t a b) true s)

/-- MDRAIN (R259). -/
def execMdrain (d : VReg) (a : SReg) (e : Bool) (t : Tag) (s : State) : Out :=
  .next (pushWord (.mdrain d a e t) true s)

/-- MZERO (R260). -/
def execMzero (a : SReg) (b : SReg) (s : State) : Out :=
  .next (pushWord (.mzero a b) true s)

/-- TWROW (R262). -/
def execTwrow (d : TReg) (a : VReg) (b : SReg) (s : State) : Out :=
  .next (pushWord (.twrow d a b) true s)

/-- TRCOL (R262). -/
def execTrcol (d : VReg) (a : TReg) (b : SReg) (s : State) : Out :=
  .next (pushWord (.trcol d a b) true s)

/-- TLDS (R263). -/
def execTlds (d : TReg) (a : SReg) (s : State) : Out :=
  .next (pushWord (.tlds d a) true s)

/-- TLDM (R263). -/
def execTldm (d : TReg) (a : SReg) (b : SReg) (s : State) : Out :=
  .next (pushWord (.tldm d a b) true s)

/-- TSET (R261). -/
def execTset (d : TReg) (t : Tag) (b : SReg) (s : State) : Out :=
  .next (pushWord (.tset d t b) true s)

/-- SBIND (R266). -/
def execSbind (d : VReg) (a : SReg) (t : Tag) (n : BitVec 2) (s : State) : Out :=
  .next (pushWord (.sbind d a t n) false s)

/-- SFREE (R266). -/
def execSfree (n : BitVec 2) (s : State) : Out :=
  .next (pushWord (.sfree n) false s)

/-- HAPPEND (R267). -/
def execHappend (a : SReg) (b : VReg) (s : State) : Out :=
  .next (pushWord (.happend a b) false s)

/-- HLOADE (R269). -/
def execHloade (d : VReg) (a : SReg) (b : VReg) (s : State) : Out :=
  .next (pushWord (.hloade d a b) false s)

/-- HLOADR (R268). -/
def execHloadr (d : VReg) (a : SReg) (b : SReg) (s : State) : Out :=
  .next (pushWord (.hloadr d a b) false s)

/-- HSYNC (R270). -/
def execHsync (a : SReg) (s : State) : Out :=
  .next (pushSleep (.hsync a) s)

/-- VAPP (R248). -/
def execVapp (d : SReg) (a : SReg) (b : VReg) (s : State) : Out :=
  .next (pushWord (.vapp d a b) false s)

/-- VPROPOSE (R246). -/
def execVpropose (d : VReg) (a : SReg) (b : VReg) (s : State) : Out :=
  .next (pushWord (.vpropose d a b) false s)

/-- VWAITALL (R254). -/
def execVwaitall (d : MReg) (a : SReg) (b : VReg) (s : State) : Out :=
  .next (pushSleep (.vwaitall d a b) s)

/-- VWAITANY (R254). -/
def execVwaitany (d : MReg) (a : SReg) (b : VReg) (s : State) : Out :=
  .next (pushSleep (.vwaitany d a b) s)

/-- VTOPK (R272). -/
def execVtopk (d : MReg) (a : VReg) (b : SReg) (s : State) : Out :=
  .next (pushWord (.vtopk d a b) false s)

end Sys2Proof.Machine
end

