-- ==== Sys2Proof/Machine/Shoot.lean ====
section
/-! DEFINITION. The shoot-down (24_translation R338 to R341): what its holders do, its end for SHOOT and for OCLEAR (22
R314, 07 R113 R120), and the invalidation of buffer entries by TLBINV (22 R315). -/

namespace Sys2Proof.Machine

/-- The leaf of a page as a walk reads it, valid or not, with the address of its entry and its level (R332). Nothing
where the walk meets no leaf entry. -/
def leafSlotFrom (s : State) (va : Nat) : Nat → Nat → Option (Nat × Nat × Nat)
  | 0, _ => none
  | lv + 1, t =>
    let a := t + 8 * bitsOf va (16 + 8 * lv + 7) (16 + 8 * lv)
    let e := natOfBytes (s.mem.read a 8)
    if !bitAt e 0 then none
    else if bitAt e 1 then some (a, e, lv)
    else if lv = 0 || pointerMalformed e then none
    else leafSlotFrom s va lv (bitsOf e 51 11 * 0x800)

def leafSlot (s : State) (part va : Nat) : Option (Nat × Nat × Nat) :=
  leafSlotFrom s va 4 (bitsOf (s.part part).troot.toNat 51 11 * 0x800)

/-- Some table entry that a walk reads on its way to a leaf, valid or not, lies in a lost line (27 R364). -/
def tableLostFrom (s : State) (va : Nat) : Nat → Nat → Bool
  | 0, _ => false
  | lv + 1, t =>
    let a := t + 8 * bitsOf va (16 + 8 * lv + 7) (16 + 8 * lv)
    let e := natOfBytes (s.mem.read a 8)
    s.lost a 8 || (bitAt e 0 && !bitAt e 1 && lv != 0 && !pointerMalformed e && tableLostFrom s va lv (bitsOf e 51 11 * 0x800))

def tableLost (s : State) (part va : Nat) : Bool := tableLostFrom s va 4 (bitsOf (s.part part).troot.toNat 51 11 * 0x800)

/-- The leaf is well-formed (R332). -/
def leafGood (s : State) (part : Nat) (x : Nat × Nat × Nat) : Bool :=
  decide (x.2.2 < 2) && !leafMalformed s.nparts part x.2.1 x.2.2 && !leafOutside s x.2.1 x.2.2

/-- The frames a leaf maps. -/
def leafFrames (e : Nat) (big : Bool) : List Nat :=
  if big then (upto 256).map fun i => leafBase e / 0x10000 + i else [leafBase e / 0x10000]

/-- The frame of a virtual page under a leaf. -/
def leafFrameAt (e : Nat) (big : Bool) (va : Nat) : Nat := leafPa e big va / 0x10000

/-- Every buffer entry of a partition that covers an address, over the whole part. -/
def heldLeaves (s : State) (part va : Nat) : List TlbEntry :=
  (s.cores.flatMap fun p => p.2.tlb.filter (·.hits part va)) ++ (s.dies.flatMap fun p => p.2.tlb.filter (·.hits part va))

/-- The streams whose header lies in one of some frames. -/
def streamsIn (s : State) (frames : List Nat) : List Nat :=
  (s.streams.filter fun p => frames.contains (frameOf p.2.pa)).map Prod.fst

/-- A stream whose header page is freed takes and answers nothing more, and each page of its courses is released through a shoot-down of
its own (06 R88 R98, 07 R113). -/
def beginUnbind (s : State) (key : Nat) : State :=
  match Map.get? s.streams key with
  | none => s
  | some x =>
    let idle := { x with arrivals := [], holds := [], begun := none, courses := x.courses.map fun _ => {} }
    let (s, y) := (x.courses.flatMap (·.pages)).foldl (fun q p => releasePage q.1 key q.2 p) (s, idle)
    { s with streams := Map.set s.streams key y }

/-- A stream is unbound: the pages of its pool are engine-held no more (06 R88 R98). -/
def unbindStream (s : State) (key : Nat) : State :=
  match Map.get? s.streams key with
  | none => s
  | some x => { holdPages false (x.spare.filter fun q => !x.lacks q.2) s with streams := Map.erase s.streams key }

/-- A freed frame loses its home state and its lost marks; a retired one does not return to the free list and leaves the
memory share (22 R314, 24 R335, 27 R364). -/
def releaseFrame (s : State) (part f : Nat) : State :=
  let s := { s with
    apps := Map.erase s.apps f
    onces := Map.erase s.onces f
    peerHolds := Map.erase s.peerHolds f
    lostLines := s.lostLines.filter fun l => l / 512 != f }
  if isRemote (f * 0x10000) then s
  else if s.retiredFrames.contains f then { s with gone := unionList s.gone [f] }
  else s.modPart part fun p => { p with freed := p.freed ++ [f] }

/-- Steps 3 and 4 of a clear (07 R120). -/
def endClear (s : State) (f : Nat) : State :=
  match Map.get? s.onces f with
  | none => s
  | some o => { s with onces := Map.set s.onces f { gen := (o.gen + 1) % 2 ^ 32, sig := o.sig } }

/-- The engine's shoot-down of a course page ends: the page returns to the pool (06 R98); where its stream is there no more, the frame is
returned (07 R114). -/
def endRelease (s : State) (key : Nat) (frames : List Nat) : State :=
  match Map.get? s.streams key with
  | none => { s with apps := frames.foldl Map.erase s.apps }
  | some x =>
    (x.releasing.filter fun p => frames.contains (frameOf p.pa)).foldl (fun s p =>
      match Map.get? s.streams key with
      | none => s
      | some x =>
        let (s, x) := givePage s x p
        { s with streams := Map.set s.streams key { x with releasing := x.releasing.filter (· != p) } }) s

/-- A FREE whose holders have all acknowledged ends once no page of a stream with its header there is on its way to the pool: the
streams are unbound and the frames released (06 R88, 22 R314). -/
def finishFree (s : State) (x : Shoot) : State :=
  if x.free && x.dies.isEmpty && x.peers.isEmpty && (streamsIn s x.frames).all fun k =>
      (Map.get? s.streams k).all fun y => y.releasing.isEmpty then
    x.frames.foldl (fun s f => releaseFrame s x.part f)
      ((streamsIn s x.frames).foldl unbindStream { s with shoots := s.shoots.erase x })
  else s

def finishFrees (s : State) : State := s.shoots.foldl finishFree s

/-- A shoot-down whose last holder has acknowledged ends; a course page that returns to its pool may let the FREE of its stream's header
end too. -/
def endShoot (s : State) (x : Shoot) : State :=
  match x.stream with
  | some key => finishFrees (endRelease s key x.frames)
  | none => if x.clear then x.frames.foldl endClear s else s

/-- A shoot-down after a holder has acknowledged: still in progress, or ended. -/
def settleShoot (s : State) (n : Nat) (x : Shoot) : State :=
  if !x.dies.isEmpty || !x.peers.isEmpty then { s with shoots := s.shoots.set n x }
  else if x.free then finishFrees ((streamsIn s x.frames).foldl beginUnbind { s with shoots := s.shoots.set n x })
  else endShoot { s with shoots := s.shoots.eraseIdx n } x

/-- Die d acknowledges the n-th shoot-down in progress. -/
def ackDie (s : State) (n d : Nat) : State :=
  match s.shoots[n]? with
  | none => s
  | some x => if !x.dies.contains d then s
    else settleShoot (holderWork s x d) n { x with dies := x.dies.filter (· != d) }

/-- A peer's copies of some frames are gone; one that takes a copy again later stands in the set again (R338 R342). -/
def forgetPeer (s : State) (q : Nat) (frames : List Nat) : State :=
  { s with peerHolds := s.peerHolds.filterMap fun p =>
      let l := if frames.contains p.1 then p.2.filter (· != q) else p.2
      if l.isEmpty then none else some (p.1, l) }

/-- Peer q acknowledges it. -/
def ackPeer (s : State) (n q : Nat) : State :=
  match s.shoots[n]? with
  | none => s
  | some x => if !x.peers.contains q then s
    else settleShoot (forgetPeer s q x.frames) n { x with peers := x.peers.filter (· != q) }

/-- A shoot-down begins: every die of the part may hold the page, so each is sent the invalidation. The dies answer at
once unless the step leaves the answers pending (log entry 3). -/
def beginShoot (s : State) (x : Shoot) : State :=
  let x := { x with dies := upto 4, peers := x.frames.foldl (fun l f => unionList l (Map.getD s.peerHolds f [])) []
                    since := s.now }
  let n := s.shoots.length
  let s := { s with shoots := s.shoots ++ [x] }
  if s.later then s else (upto 4).foldl (fun s d => ackDie s n d) s

/-- The strand whose turn it is waits for a shoot-down of its own. -/
def shooting (s : State) : Bool := s.shoots.any fun x => x.owner == s.key

/-- The number of the shoot-down in progress on a virtual page (the events name it so). -/
def shootOn (s : State) (vpage : Nat) : Option Nat := s.shoots.findIdx? fun x => x.vpage == vpage

/-- A frame is a page of the stream's pool. -/
def Stream.owns (x : Stream) (f : Nat) : Bool :=
  (x.spare.map Prod.snd ++ (x.courses.flatMap (·.pages) ++ x.releasing).map (·.pa)).any fun pa => frameOf pa == f

/-- Streams whose pool a frame belongs to have it no more (07 R113; log entry 75). -/
def takeFromPools (s : State) (f : Nat) : State :=
  if !s.streams.any (fun p => p.2.owns f) then s else
  { s with streams := s.streams.map fun p => if p.2.owns f then (p.1, { p.2 with freed := p.2.freed ++ [f] }) else p }

/-- FREE of a page with leaf e begins at the home of a frame: its walk has created the home state of the frame, APPEND pages are releasing,
which a waiting SEAL is told, ONCE pages take no proposal (07 R113 R120, 22 R314, 24 R335 R339). -/
def startFree (e : Nat) (s : State) (f : Nat) : State :=
  let s := takeFromPools (drainMarks f (homeState s e f)) f
  let s := match Map.get? s.apps f with
    | some p => tellSeals { s with apps := Map.set s.apps f { p with state := .releasing } } f false
    | none => s
  match Map.get? s.onces f with
  | some o => { s with onces := Map.set s.onces f { o with clearing := true } }
  | none => s

/-- The leaf entry at an address is marked not present. -/
def unmapLeaf (s : State) (a e : Nat) : State := physWrite s a (bytesOfNat 8 (e - e % 2))

/-- SHOOT at the homes, with op 0 FLUSH and op 1 FREE, once its checks have passed (22 R314). -/
def shootPage (s : State) (va op : Nat) (slot : Option (Nat × Nat × Nat)) : State :=
  let part := s.me.part
  let big := match slot with
    | some x => x.2.2 == 1
    | none => false
  let held := if op = 1 then [] else (heldLeaves s part va).map fun t => leafFrameAt t.leaf t.big va
  let own := match slot with
    | some x => if op = 1 then leafFrames x.2.1 big else [leafFrameAt x.2.1 big va]
    | none => []
  let frames := unionList own held
  let s := drainPath s
  let s := if op = 1 then
      match slot with
      | some x => unmapLeaf (own.foldl (startFree x.2.1) s) x.1 x.2.1
      | none => s
    else s
  beginShoot s { owner := s.key, part := part, vpage := va / 0x10000, big := big, frames := frames, free := op == 1, clear := false,
                 dies := [], peers := [], since := 0 }

/-- A clear of a ONCE page at its home: step 1, then the shoot-down of step 2, for an owner of a partition that names the page so (07
R120). -/
def beginClear (s : State) (owner part vpage f : Nat) : State :=
  beginShoot { s with onces := Map.set s.onces f { s.once f with clearing := true } }
    { owner := owner, part := part, vpage := vpage, big := false, frames := [f], free := false, clear := true,
      dies := [], peers := [], since := 0 }

/-- OCLEAR at the home (07 R120). -/
def clearPage (s : State) (va f : Nat) : State := beginClear (drainPath s) s.key s.me.part (va / 0x10000) f

/-- TLBINV (22 R315): kinds 0 and 2 the page, 1 and 3 the partition; 0 and 1 the executing die, 2 and 3 every die. -/
def invalidate (s : State) (va kind : Nat) : State :=
  let part := s.me.part
  let gone := fun (t : TlbEntry) => t.part == part && (kind % 2 == 1 || t.hits part va)
  if kind < 2 then dropEntries s (dieOfKey s.key) gone
  else (upto 4).foldl (fun s d => dropEntries s d gone) s

end Sys2Proof.Machine
end

