-- ==== Sys2Proof/Machine/Gangs.lean ====
section
/-! DEFINITION. Gangs and launches from placement to completion (02_execution R24 to R26, 05 R74, 23_scheduling R326 to
R329), pre-emption and what a stop does to a gang (22 R307 R317, 25_faults R346 R352), and the end of a strand, a gang and
a launch (11 R198, 25 R353, 23 R327). -/

namespace Sys2Proof.Machine

/-- The strands of a gang that hold a place on the part and have not exited, by place. -/
def residentOf (s : State) (g : Nat) : List (Nat × Strand) :=
  s.strands.filter fun p => !p.2.fliven && p.2.id.gang == g
    && (p.2.status == .placed || p.2.status == .ready || p.2.status == .stopped)

/-- The device-wide cores of a gang. -/
def Gang.cores (g : Gang) : List Nat := g.cids.map fun c => g.cluster * 8 + c

/-- A gang that holds its place (23 R326). -/
def Gang.isResident (g : Gang) : Bool := g.state == .placed || g.state == .running

/-! The end of strands, gangs and launches. -/

/-- Every lane group a strand holds or still has to release. -/
def groupsHeld (t : Strand) : List Nat :=
  t.v.groups ++ t.queue.flatMap fun q => match q with
    | .dropGroups _ freed => freed
    | .entry _ | .dropSlots _ _ => []

/-- What a strand that will not go on had asked of the course engines is withdrawn: arrivals not accepted, and holds. -/
def withdrawCourses (s : State) (sid : Nat) : State :=
  if s.streams.all fun p => !(p.2.arrivals.any fun a => a.strand == sid) && !(p.2.holds.any fun h => h.1 == sid) then s else
  { s with streams := s.streams.map fun p => (p.1, { p.2 with
      arrivals := p.2.arrivals.filter fun a => a.strand != sid || a.accepted
      holds := p.2.holds.filter fun h => h.1 != sid }) }

/-- The strand whose turn it is ends: its groups become free, its stream slots, registers and masks are discarded (11
R198). Stores that wait are still performed later. -/
def exitStrand (s : State) : State :=
  let (s, _) := returnCredits s.myCore s.me.queue s
  let s := withdrawCourses s s.me.sid
  let s := freeGroups s s.myCore (groupsHeld s.me)
  let s := s.modGang s.me.id.gang fun g => { g with sleptSince := some s.now }
  s.modMe fun t => { t with
    status := .exited, regs := Vector.replicate 64 0, queue := [], v := {}, wait := {}, owed := [], stopped := none }

/-- Copies, tile writes or reduction messages of a gang are still on the way on its cores (02 R25). -/
def gangBusy (s : State) (g : Nat) (x : Gang) : Bool :=
  x.cores.any fun c =>
    ((s.core c).chunks.any fun k => k.gang == g) || ((s.core c).tileWrites.any fun w => w.gang == g)
      || ((s.core c).redMsgs.any fun m => m.gang == g)

/-- The waiting scalar accesses of every strand of a gang are performed, of those too that have exited or stopped (16 R296). -/
def drainGang (s : State) (g : Nat) : State :=
  (s.strands.filterMap fun p => if !p.2.fliven && p.2.id.gang == g then some p.1 else none).foldl drainStrand s

/-- The strands of an ended gang leave their places, once their stores are performed. -/
def clearPlaces (s : State) (g : Nat) : State :=
  let ks := s.strands.filterMap fun p => if !p.2.fliven && p.2.id.gang == g then some p.1 else none
  let s := drainGang s g
  let s := (unionList [] (ks.map coreOfKey)).foldl (fun s c => drainStores c (fun v => v.gang == g) s) s
  { s with others := s.others.filter fun p => p.2.fliven || p.2.id.gang != g }

/-- The save space of a gang becomes free. -/
def freeSave (s : State) (part g : Nat) : State :=
  s.modPart part fun p => { p with save := p.save.filter fun u => u.2.2 / 2 != g }

/-- The releases that bytes and barriers of a gang's scratchpad carry are gone with its pages. -/
def forgetSigs (s : State) (g : Nat) : State :=
  { s with
    lineSig := s.lineSig.filter fun p => decide (p.1 < 2 ^ 60) || (p.1 - 2 ^ 60) / 0x800000 != g
    cores := s.cores.map fun c => if c.2.barSig.isEmpty then c else
      (c.1, { c.2 with barSig := c.2.barSig.filter fun p => p.1 / 2 ^ 20 != g }) }

/-- A gang that has ended gives up its matrix state and its pages when no copy of it is on the way any more (02 R25). -/
def reapGang (s : State) (g : Nat) : State :=
  match s.gang? g with
  | none => s
  | some x =>
    if x.state ≠ .ended ∨ gangBusy s g x then s else
    let s := clearPlaces s g
    let s := x.cores.foldl (fun s c =>
      if (s.core c).mxGang = some g then s.modCore c fun y => { y with mxGang := none, tiles := [], acc := [] } else s) s
    let s := forgetSigs (freeSave s x.part g) g
    { s with gangs := Map.erase s.gangs g }

def reapGangs (s : State) : State := (s.gangs.map Prod.fst).foldl reapGang s

/-- The gang ends, once in its life (02 R25). -/
def markEnded (s : State) (g : Nat) : State :=
  match s.gang? g with
  | none => s
  | some x =>
    if x.state = .ended then s else
    let s := s.modGang g fun x => { x with state := .ended, saved := [] }
    reapGang (s.modLaunch x.launch fun l => { l with ended := l.ended + 1 }) g

/-- Every strand of a gang ends where it stands, and the gang with them (25 R353). -/
def endGang (s : State) (g : Nat) : State :=
  let s := (residentOf s g).foldl (fun s p => s.asStrand p.1 exitStrand) s
  let s := match s.gang? g with
    | none => s
    | some x => x.saved.foldl (fun s p => withdrawCourses s p.2.sid) s
  markEnded s g

/-- A launch has placed every gang: the dispatch unit serves another task (R325). -/
def endServing (s : State) (lk : Nat) : State :=
  match Map.get? s.launches lk with
  | none => s
  | some l =>
    if l.placed < l.task.ngang && !l.done then s
    else s.modPart l.part fun p => if p.serving = some lk then
        { p with serving := none, queues := Map.set p.queues l.queue { Map.getD p.queues l.queue {} with
            head := none, release := none, depsMet := false } }
      else p

/-- Every gang of a launch ends, and no further gang of it is placed (22 R316, 23 R328). -/
def endLaunch (s : State) (l : Nat) : State :=
  let s := (s.gangs.filter fun p => p.2.launch == l).foldl (fun s p => endGang s p.1) s
  endServing (s.modLaunch l fun x => { x with done := true }) l

/-- EXIT of the strand whose turn it is; that of the gang's last strand ends the gang (11 R198, 02 R25). -/
def exitNow (s : State) : State :=
  let g := s.me.id.gang
  if s.me.fliven then s.modMe fun t => { t with status := .exited, wait := {}, owed := [] } else
  let s := exitStrand s
  if (residentOf s g).isEmpty then markEnded s g else s

/-! Sleep (23 R328). -/

/-- Since when every strand of a gang sleeps or has exited, if it sleeps. -/
def gangSlept (s : State) (g : Nat) (x : Gang) : Option Nat :=
  let ts := (residentOf s g).map Prod.snd
  if ts.isEmpty || ts.any (fun t => t.status != .ready || t.wait.since.isNone) then none
  else some (ts.foldl (fun m t => Nat.max m (t.wait.since.getD 0)) (x.sleptSince.getD 0))

/-! Stopping a gang (22 R307, 25 R346). -/

/-- The entries that pre-emption may stop at an element-group boundary (12 R207, 13 R232). -/
def elementWise : Instr → Bool
  | .vadd _ _ _ _ | .vsub _ _ _ _ | .vmul _ _ _ _ | .vmulh _ _ _ _ | .vmulhn _ _ _ _ | .vmacc _ _ _ _
  | .vmin _ _ _ _ | .vmax _ _ _ _ | .vminn _ _ _ _ | .vmaxn _ _ _ _ | .vand _ _ _ _ | .vor _ _ _ _ | .vxor _ _ _ _
  | .vshl _ _ _ _ | .vshr _ _ _ _ | .vsar _ _ _ _ | .vadds _ _ _ _ | .vsubs _ _ _ _
  | .vseq _ _ _ _ | .vsne _ _ _ _ | .vslt _ _ _ _ | .vsle _ _ _ _ | .vsltn _ _ _ _ | .vslen _ _ _ _
  | .vfadd _ _ _ _ | .vfsub _ _ _ _ | .vfmul _ _ _ _ | .vfma _ _ _ _ | .vfms _ _ _ _ | .vfdiv _ _ _ _
  | .vfmin _ _ _ _ | .vfmax _ _ _ _ | .vfseq _ _ _ _ | .vfslt _ _ _ _ | .vfsle _ _ _ _ | .vmerge _ _ _ _
  | .vmov _ _ _ | .vneg _ _ _ | .vabs _ _ _ | .vnot _ _ _ | .vclz _ _ _ | .vpopce _ _ _ | .vfneg _ _ _ | .vfabs _ _ _
  | .vfsqrt _ _ _ | .vfrcp _ _ _ | .vfrsq _ _ _ | .vfexp2 _ _ _ | .vfclass _ _ _ | .vcvt _ _ _ _ _ _
  | .vsplat _ _ _ | .vins _ _ _ | .vld _ _ _ _ _ _ | .vst _ _ _ _ _ => true
  | _ => false

/-- The entries that pre-emption may stop after any element (13 R233). -/
def stopsAnywhere : Instr → Bool
  | .vldx _ _ _ _ _ | .vstx _ _ _ _ | .vldb _ _ _ _ _ | .vredm _ _ _ _ _ | .vpropose _ _ _ => true
  | _ => false

/-- The entries that are completed first (12 R207, 14 R255): those that are not stopped inside and not restarted. A HAPPEND is one
once its records are all taken. -/
def completedFirst (s : State) (t : Strand) (e : Entry) : Bool :=
  match e.instr with
  | .hsync _ | .vwaitall _ _ _ | .vwaitany _ _ _ | .tcopy _ _ _ => false
  | .happend _ _ => e.credits == 1
      && !s.streams.any fun p => p.2.arrivals.any fun a => a.strand == t.sid && a.seq == e.seq
  | i => !elementWise i && !stopsAnywhere i

/-- The entry at VCP is completed, with the work of engines and homes that it waits for. -/
def completeHead (s : State) : State × Bool :=
  let (t, moved) := runHead (queuedAt s s.myCore) { s with later := false }
  ({ t with later := s.later }, moved)

/-- The entry at VCP of the strand at a place must be completed before the context is taken, and cannot be yet: its lane groups sleep, a
reservation of it is on the way, or the engine has taken some of its records (14 R255, 23 R329). -/
def entryBusy (s : State) (k : Nat) (t : Strand) : Bool :=
  match t.queue with
  | .entry e :: _ =>
    (match e.instr with
      | .happend _ _ => s.streams.any fun p => p.2.arrivals.any fun a => a.strand == t.sid && a.seq == e.seq && a.accepted
      | _ => false)
    || (completedFirst s t e && (match s.focus? k with
      | some u => !(completeHead u).2
      | none => false))
  | _ => false

/-- A strand that cannot be stopped yet: the answer to a request with an effect is on the way (11 R181), or its entry at
VCP is completed first. -/
def answerDue (s : State) (k : Nat) (t : Strand) : Bool := t.wait.mark.isSome || entryBusy s k t

/-- PD of a strand holds off a request made at `since` (22 R307). -/
def deferred (s : State) (t : Strand) (since : Nat) : Bool := t.pd && decide (s.now < since + (s.part t.id.pid).pdlim)

/-- A request made at `since` to stop a gang has to wait. -/
def stopHeld (s : State) (g since : Nat) : Bool :=
  (residentOf s g).any fun p => p.2.status != .stopped && (deferred s p.2 since || answerDue s p.1 p.2)

/-- The record of a pre-emption: KIND 1 with the word of the entry at VCP when the queue holds one (25 R343). -/
def preemptWord (t : Strand) : Nat × Nat :=
  match entriesOf t.queue with
  | [] => (0, 0)
  | e :: _ => (1, (encode e.instr).toNat)

/-- The element width that R17 counts an element-wise entry at. -/
def countedWidth (c : Ctx) (f : VFile) (i : Instr) : Nat :=
  let tag := fun r => (f.slot (c.slot r)).tag
  match i with
  | .vld _ _ _ _ t _ => t.tag.width
  | .vsplat _ d _ | .vins _ d _ => (tag d).width
  | .vcvt _ _ a t _ _ => Nat.max (tag a).width t.width
  | .vand _ _ a (.v b) | .vor _ _ a (.v b) | .vxor _ _ a (.v b) => if tag a = tag b then (tag a).width else 32
  | i => match popSources i with
    | a :: _ => (tag a).width
    | [] => 32

/-- The next multiple of per_cycle after k issued elements; none when the entry completes before it (02 R17, 25 R346). -/
def stopPoint (c : Ctx) (f : VFile) (g k : Nat) (i : Instr) : Option Nat :=
  let n := roundUp k (16 * g * 32 / countedWidth c f i)
  if elementWise i && decide (c.lo < n ∧ n < c.vl) then some n else none

/-- The state at a stop inside an entry: its pops are taken back, its destination keeps its tag, a VCVT in place keeps its source,
and the flags so far are in FCSR, with FPPEND for a trapped one (03 R34, 08 R139, 12 R206, 25 R347). -/
def stopAt (before : State) (e : Entry) (vstart flags : Nat) (s : State) : State :=
  let s := unpop before s e
  let s := (unboundFields e.instr).foldl (fun s f => s.setTag (e.wb + f) (before.slot (e.wb + f)).tag) s
  let s := match e.instr with
    | .vcvt _ d a _ _ _ => keepSource (d == a) ((ctxFor before e).source before a) s
    | _ => s
  s.modMe fun t => { t with
    fcsr := orFlags t.fcsr flags
    v := { t.v with vstart := vstart, fppend := t.v.fppend || trapsFp t.fcsr t.fd flags } }

/-! Elements issued ahead of the others (05 R76 R77, 13 R233; log entry 6). -/

/-- The address of element i of a partially completing entry, its pops done. -/
def elementAddr (s : State) (e : Entry) (i : Nat) : Option Word :=
  let c := ctxFor s e
  match e.instr with
  | .vldx _ _ _ b _ | .vstx _ _ _ b | .vredm _ _ _ b _ | .vpropose _ _ b => some (offsetAddr c.x (c.source s b) i)
  | .vldb _ _ _ b t => boundedAddr c (c.source s b) t.tag.width i
  | _ => none

/-- The bytes of an element. -/
def elementBytes (s : State) (e : Entry) : Nat :=
  match e.instr with
  | .vldx _ _ _ _ t | .vldb _ _ _ _ t => t.tag.width / 8
  | .vstx _ v _ _ | .vredm _ v _ _ _ => (s.slot ((ctxFor s e).slot v)).tag.width / 8
  | _ => 16

/-- The bank of the chunk at a scratchpad offset (R75). -/
def bankOf (o : Nat) : Nat := bitsOf o 9 4 ^^^ bitsOf o 15 10

/-- The next beat of the core that element i names: in the lowest window of 64 with elements left, for each bank the chunk of its
lowest element and every other element in that chunk (R76). -/
def beatOf (addr : Nat → Nat) (pending : List Nat) (i : Nat) : List Nat :=
  let mine := pending.filter fun j => bitAt (addr j) 63 && bitsOf (addr j) 23 21 == bitsOf (addr i) 23 21
  let window := mine.filter fun j => j / 64 == (mine.headD 0) / 64
  window.filter fun j => match window.find? fun k => bankOf (addr k % 0x100000) == bankOf (addr j % 0x100000) with
    | some k => addr k / 16 == addr j / 16
    | none => false

/-- A VLD or VST that is strided and names scratchpad: it issues in beats. The E2M1 forms are contiguous (05 R76, 13 R235 to R237). -/
def stridedSpad (c : Ctx) (f : VFile) (e : Entry) : Bool :=
  match e.instr with
  | .vld _ _ _ b t _ => b != 0 && t != .e2m1 && e.x.getLsbD 63
  | .vst _ v _ b _ => b != 0 && (f.slot (c.slot v)).tag != .e2m1 && e.x.getLsbD 63
  | _ => false

/-- The address of element i of a strided VLD or VST. -/
def strideAddr (e : Entry) (i : Nat) : Nat := (e.x + BitVec.ofNat 64 i * e.y).toNat

/-- The end of the elements that have been issued, in beats, once `due` more of the pending ones are: one past the highest (R76). -/
def beatReach (addr : Nat → Nat) : Nat → Nat → Nat → List Nat → Nat
  | 0, _, reach, _ => reach
  | n + 1, due, reach, pending =>
    match due, pending with
    | _ + 1, i :: _ =>
      let g := beatOf addr pending i
      beatReach addr n (due - g.length) (g.foldl (fun m j => Nat.max m (j + 1)) reach) (pending.filter fun j => !g.contains j)
    | _, _ => reach

/-- How far a stop that comes once the elements below k would be issued in ascending order finds an entry: a strided one on scratchpad
has issued as many elements, in beats (R76). -/
def issuedReach (c : Ctx) (f : VFile) (e : Entry) (k : Nat) : Nat :=
  let gov := c.governed f (maskOf e.instr)
  if stridedSpad c f e then beatReach (strideAddr e) gov.length (gov.filter (· < k)).length 0 gov else k

/-- An element that would write bytes, or name a cell, of a lower one that is still pending waits for it (R77 R119, 13 R233). -/
def elementHeld (s : State) (e : Entry) (pending : List Nat) (i : Nat) : Bool :=
  let n := elementBytes s e
  let ordered := match e.instr with
    | .vstx _ _ _ _ | .vredm _ _ _ _ _ | .vpropose _ _ _ => true
    | _ => false
  ordered && pending.any fun j => decide (j < i) && (match elementAddr s e i, elementAddr s e j with
    | some a, some b => sameBytes s s.agent n a b
    | _, _ => false)

/-- The elements that are issued together with element i, if it may be issued now: a beat of scratchpad elements of VLDX and VSTX,
else the element alone (R76). -/
def issueGroup (s : State) (e : Entry) (i : Nat) : List Nat :=
  let pending := pendingOf s e
  let inBeats := match e.instr with
    | .vldx _ _ _ _ _ | .vstx _ _ _ _ => true
    | _ => false
  let addr := fun j => ((elementAddr s e j).getD 0).toNat
  if !pending.contains i then []
  else if inBeats && bitAt (addr i) 63 then
    let g := beatOf addr pending i
    if g.contains i then g else []
  else if elementHeld s e pending i then [] else [i]

/-- The entry at VCP issues some of its elements, and keeps them in VDONE. -/
def issueElements (e : Entry) (g : List Nat) (s : State) : State :=
  match laneEntry { e with only := some g } s with
  | .done u _ => stopAt s e s.me.v.vstart 0 u
  | .wait _ | .fault _ _ => s

/-- The registers of an entry as it meets them: its pops done, none while a position is missing. -/
def poppedState (s : State) (e : Entry) : Option State :=
  match popAll s e with
  | .ready _ u _ => some u
  | .wait _ => none

/-- The entry at VCP. -/
def headEntry (s : State) : Option Entry :=
  match s.me.queue with
  | .entry q :: _ => some q.whole
  | _ => none

/-- The entry at VCP issues elements, the lowest one first, until k are done. -/
def issueUntil (k : Nat) : Nat → State → State
  | 0, s => s
  | n + 1, s =>
    match headEntry s with
    | none => s
    | some e =>
    if k ≤ ((upto e.vl).filter fun i => s.me.v.vdone.toNat.testBit i).length then s else
    match poppedState s e with
    | none => s
    | some u =>
      match (pendingOf u e).head? with
      | none => s
      | some i => issueUntil k n (issueElements e (issueGroup u e i) s)

/-- One access of a VLD is read before the entry completes. -/
def readOne (u : Bool) (s : State) (p : Nat × Word × Nat) : State :=
  let (i, a, n) := p
  let s := touch s s.agent a
  match check s s.agent .vload a n n with
  | .error _ => s
  | .ok p =>
    let s := follow [(p.loc, n)] s
    let (s, bs) := readAt s s.agent (if u then .uc else .si) p.loc n
    s.modHead fun q => { q with early := q.early ++ [(i, bs)] }

/-- Element i of a VLD is read before the others, since two element accesses of one entry are unordered (15 R275); one of a strided VLD
on scratchpad, with its beat and when that is next (05 R76). -/
def readEarly (e : Entry) (m : MReg) (b : SReg) (t : LoadType) (u : Bool) (i : Nat) (s : State) : Option State :=
  let c := ctxFor s e
  let w := t.tag.width
  let gov := c.governed (fileOf s) m
  let l := if t = .e2m1 then nibbleAccesses c.x c.y gov else elementAccesses c.x (strideOf b (w / 8) c.y) (w / 8) gov
  let l := l.filter fun p => !e.early.any fun x => x.1 == p.1
  let g := if stridedSpad c (fileOf s) e then beatOf (strideAddr e) (l.map Prod.fst) i else [i]
  if l.any (fun p => p.1 == i) && g.contains i then some ((l.filter fun p => g.contains p.1).foldl (readOne u) s) else none

/-- The entry at VCP performs its element i ahead of the others, where nothing orders it behind them. -/
def issueNth (i : Nat) (s : State) : Option State :=
  match headEntry s with
  | none => none
  | some e =>
    if s.me.status ≠ .ready || groupsAsleep s e then none
    else match e.instr with
      | .vld m _ _ b t u => if (ctxFor s e).fits t.tag.width then readEarly e m b t u i s else none
      | _ =>
        if !stopsAnywhere e.instr then none else
        match poppedState s e with
        | none => none
        | some u =>
          match issueGroup u e i with
          | [] => none
          | g => some (issueElements e g s)

/-- A TCOPY that pre-emption stops after k rows: the rows accepted so far go on, and it is resumed at VSTART (14 R255). -/
def stopCopy (e : Entry) (k : Nat) (s : State) : State :=
  match laneEntry { e with upTo := some k } s with
  | .fault t u => takeTrap 1 (encode e.instr).toNat t (drainLoads u)
  | .wait _ => s
  | .done u _ => (stopAt s e (Nat.max s.me.v.vstart k) 0 u).modHead fun q => { q with credits := 0 }

/-- The entry at VCP is brought to its stopping point: completed, or stopped inside if it has begun; its own fault comes before
the pre-emption (25 R346). -/
def stopInside (s : State) : State :=
  match s.me.queue with
  | .entry q :: _ =>
    let e := q.whole
    if groupsAsleep s e then s
    else if completedFirst s s.me e then (completeHead s).1
    else
      match q.upTo with
      | none => s
      | some k =>
        match e.instr with
        | .tcopy _ _ _ => if k < e.vl then stopCopy e k s else (completeHead s).1
        | _ =>
          if stopsAnywhere e.instr then
            match laneEntry { e with only := some [] } s with
            | .fault t u => takeTrap 1 (encode e.instr).toNat t (drainLoads u)
            | .wait _ => s
            | .done _ _ => issueUntil k e.vl s
          else if !elementWise e.instr then s
          else
            match poppedState s e with
            | none => s
            | some u =>
              match stopPoint (ctxFor u e) (fileOf u) e.lg (issuedReach (ctxFor u e) (fileOf u) e k) e.instr with
              | none => (completeHead s).1
              | some n =>
                match laneEntry e s with
                | .fault t u => takeTrap 1 (encode e.instr).toNat t (drainLoads u)
                | .wait _ => s
                | .done _ _ =>
                  match laneEntry { e with upTo := some n } s with
                  | .done w flags => stopAt s e n flags w
                  | .fault _ _ | .wait _ => s
  | _ => s

/-- A stop that comes now meets the entry at VCP after k issued elements. -/
def markIssued (k : Nat) (s : State) : State := s.modHead fun e => { e with upTo := some k }

/-- The strand whose turn it is comes to its stopping point. An arrival not yet accepted is withdrawn, and the entry sends it again
(25 R346). -/
def comeToStop (s : State) : State :=
  let s := stopInside s
  if s.me.status = .stopped then s else
  (drainPath (withdrawCourses s s.me.sid)).modMe fun t => { t with queue := t.queue.map fun q => match q with
    | .entry e => .entry (match e.instr with
        | .happend _ _ => { e.whole with credits := 0 }
        | _ => e.whole)
    | .dropGroups k f => .dropGroups k f
    | .dropSlots lo hi => .dropSlots lo hi }

/-- The context of the strand at its stopping point is saved: with a record for HALT, without one for rotation (25 R346). -/
def stopForGang (record : Bool) (s : State) : State :=
  let (kind, word) := preemptWord s.me
  if record then stopStrand kind word { cause := .preempt } s
  else
    let (s, q) := returnCredits s.myCore s.me.queue s
    let m := { s.me.stop kind { cause := .preempt } with queue := q }
    let s := allotContext { s with me := m } m.id.gang
    saveStrand s m

/-- The matrix state of one core goes to the gang and to its matrix state block (25 R350 R351). -/
def saveMatrix (s : State) (g : Nat) (j cid : Nat) : State :=
  match s.gang? g with
  | none => s
  | some x =>
    let c := x.cluster * 8 + cid
    let y := s.core c
    let s := if x.ctx = 0 ∨ !x.mx then s else physWrite s (x.ctx + matrixOffset x j) (matrixBlock y.tiles y.acc)
    let s := s.modGang g fun x => { x with mat := Map.set x.mat cid (y.tiles, y.acc) }
    s.modCore c fun y => { y with mxGang := none, tiles := [], acc := [] }

/-- Everything a core has on its way is performed: copies, tile writes, reduction messages and vector stores. -/
def settleCore (s : State) (core : Nat) : State :=
  let s := landAll s core
  let s := landWrites core (s.core core).tileWrites.length s
  drainStores core (fun _ => true) (drainMessages core s)

/-- The gang leaves the part: its strands, groups, matrix states and pages are given up (25 R346, 05 R74). A strand's place in the save
list is its place at the stop. -/
def unplace (s : State) (g : Nat) (state : GangState) : State :=
  match s.gang? g with
  | none => s
  | some x =>
    let ts := residentOf s g
    let s := ts.foldl (fun s p => freeGroups s (coreOfKey p.1) (groupsHeld p.2)) s
    let s := if x.mx then x.cids.zipIdx.foldl (fun s p => saveMatrix s g p.2 p.1) s else s
    let s := ts.foldl (fun s p => s.putStrand p.1 { p.2 with status := .absent, queue := [], v := {} }) s
    let s := { s with others := s.others.filter fun p => p.2.fliven || p.2.id.gang != g }
    s.modGang g fun x => { x with state := state, stoppedAt := s.now, saved := ts, stopReq := none }

/-- A HALT that waits for the gang knows that it has stopped, whatever becomes of the gang before its next turn (22 R317). -/
def Strand.sawHalt (g : Nat) (t : Strand) : Strand :=
  match t.wait.on_ with
  | some (.halt _ _) => if t.wait.mark = some g then { t with wait := { t.wait with halted := true } } else t
  | _ => t

def tellHalts (s : State) (g : Nat) : State :=
  { s with me := s.me.sawHalt g, others := s.others.map fun p => (p.1, p.2.sawHalt g) }

/-- Every copy and every scalar access of a gang is performed (05 R74). -/
def settleGang (s : State) (g : Nat) : State :=
  match s.gang? g with
  | none => s
  | some x => drainGang (x.cores.foldl settleCore s) g

/-- Each strand of a gang that is not stopped, in turn. -/
def eachRunning (f : State → State) (g : Nat) (s : State) : State :=
  (residentOf s g).foldl (fun s p => s.asStrand p.1 fun s => if s.me.status = .stopped then s else f s) s

/-- Stops a gang: every running strand comes to its stopping point, then what the gang has on its way is performed, and only then the
contexts are saved (22 R317, 25 R346). -/
def stopGang (s : State) (g : Nat) (halt : Bool) : State :=
  let s := eachRunning (stopForGang halt) g (settleGang (eachRunning comeToStop g s) g)
  if halt then tellHalts (unplace s g .halted) g else unplace s g .preempted

/-! Placement (23 R326). -/

/-- A place is free: nobody stands there, or a strand that has exited and owes no store. -/
def slotFree (s : State) (k : Nat) : Bool :=
  match s.strand? k with
  | none => true
  | some t => (t.status == .exited || t.status == .absent) && t.ord.path.isEmpty

/-- Scratchpad frames of a core pinned by resident gangs, or by ended ones whose copies are on the way (05 R74). -/
def pinned (s : State) (core : Nat) : Nat :=
  (s.gangs.map fun p => if (p.2.isResident || p.2.state == .ended) && p.2.cores.contains core then p.2.task.spad else 0).sum

/-- Free lane groups of a core (02 R18, 27 R365). -/
def freeCount (x : Core) : Nat := (x.groups.filter fun g => g.owner.isNone && !g.retired).length

/-- A core meets the demands of a gang on it: places, groups, frames, matrix state (R326). That a core whose strands of a gang with the matrix
state have all exited takes no other such gang before that gang has ended is the model's choice (log entry 84). -/
def coreFits (s : State) (core places groups spad : Nat) (mx : Bool) : Bool :=
  decide (places ≤ ((upto 4).filter fun i => slotFree s (core * 4 + i)).length)
    && decide (groups ≤ freeCount (s.core core)) && decide (pinned s core + spad ≤ 64)
    && (!mx || (s.core core).mxGang.isNone)

/-- The clusters of a partition in search order, starting after one, or from the lowest (R326). -/
def searchOrder (s : State) (part : Nat) (last : Option Nat) : List Nat :=
  let cs := (upto 32).filter fun c => s.partOfCluster c == part
  match last with
  | none => cs
  | some l => cs.filter (fun c => decide (l < c)) ++ cs.filter (fun c => decide (c ≤ l))

/-- The first cluster that takes a new gang, and the cores it takes: the lowest CIDs that qualify (R326). -/
def findCluster (s : State) (part : Nat) (last : Option Nat) (t : TaskRec) : Option (Nat × List Nat) :=
  let per := t.nstr / t.ncore
  (searchOrder s part last).findSome? fun c =>
    let ok := (upto 8).filter fun i => coreFits s (c * 8 + i) per (t.floor * per) t.spad (bitAt t.flags 2)
    if t.ncore ≤ ok.length then some (c, ok.take t.ncore) else none

/-- Frames that the pages of gangs not resident still occupy on a core: (gang, page), oldest gang first. -/
def loosePages (s : State) (core : Nat) : List (Nat × Nat) :=
  (s.gangs.filter fun p => (p.2.state == .preempted || p.2.state == .halted) && p.2.cores.contains core).flatMap fun p =>
    ((upto p.2.task.spad).filter fun i => !p.2.evicted.contains (cidOfCore core, i)).map fun i => (p.1, i)

/-- One page of a gang goes to its backing area (05 R74). -/
def evictPage (s : State) (g cid page : Nat) : State :=
  match s.gang? g with
  | none => s
  | some x =>
    let s := physWrite s (backingAddr x cid page) ((Map.getD x.spads cid []).readLong (page * 0x4000) 128)
    s.modGang g fun x => { x with evicted := x.evicted ++ [(cid, page)] }

/-- Frames are taken on a core for n pages: loose pages beyond the 64 frames are evicted (05 R74; log entry 13). -/
def takeFrames (s : State) (core n : Nat) : State :=
  let loose := loosePages s core
  (loose.take (pinned s core + n + loose.length - 64)).foldl (fun s p => evictPage s p.1 (cidOfCore core) p.2) s

/-- A strand of a new gang, as placement sets it (03 R31 to R44, 23 R326). -/
def newStrand (l : Launch) (gang gid sidx : Nat) : Strand :=
  { status := .placed
    pc := l.task.pc
    v := { lg := l.task.floor, valc := 16 * l.task.regs }
    id := { gid := gid, sidx := sidx, nstr := l.task.nstr, ngang := l.task.ngang, larg := l.task.larg, pid := l.part,
            lstart := l.lstart, floor := l.task.floor, mx := bitAt l.task.flags 2, gang := gang, launch := 0 } }

/-- Seats a strand at the lowest free place of a core, holding n of its lowest free groups (R326). -/
def seat (s : State) (core n : Nat) (t : Strand) : State × Nat :=
  match (upto 4).find? fun i => slotFree s (core * 4 + i) with
  | none => (s, core * 4)
  | some i =>
    let (gs, new) := takeGroups i n 0 (s.core core).groups
    let s := s.modCore core fun x => { x.hold s.now gs with unitHeld := x.unitHeld.filter fun p => p.2.1 != i }
    (s.putStrand (core * 4 + i) { t with v := { t.v with groups := new } }, core * 4 + i)

/-- A gang or launch number not in use; numbers start at 1. -/
def freshKey {α : Type} (m : Map α) : Nat := m.foldl (fun n p => Nat.max n (p.1 + 1)) 1

/-- The matrix state of a core is given to a gang. -/
def giveMatrix (s : State) (g core : Nat) (tiles : Map Tile) (acc : Map AccRow) : State :=
  s.modCore core fun y => { y with mxGang := some g, tiles := tiles, acc := acc }

/-- The backing areas of a gang with pages, from the save space (05 R74). -/
def takeBacking (s : State) (part gang : Nat) (t : TaskRec) : Option (State × Nat) :=
  if t.spad = 0 then some (s, 0) else takeUnits s part (ceilDiv (t.spad * t.ncore) 4) (2 * gang) 1

/-- Places gang number `gid` of a launch on cores of a cluster (R326). -/
def placeOn (s : State) (lk : Nat) (l : Launch) (cluster : Nat) (cids : List Nat) (gang backing : Nat) : State :=
  let t := l.task
  let per := t.nstr / t.ncore
  let cores := cids.map fun c => cluster * 8 + c
  let s := cores.foldl (fun s c => takeFrames s c t.spad) s
  let (s, keys) := (upto t.nstr).foldl (fun (p : State × List Nat) i =>
    let (s, k) := seat p.1 ((cores[i / per]?).getD 0) t.floor { newStrand l gang l.placed i with
      id := { (newStrand l gang l.placed i).id with launch := lk } }
    (s, p.2 ++ [k])) (s, [])
  let g : Gang := { gid := l.placed, launch := lk, part := l.part, cluster := cluster, cids := cids, keys := keys,
                    state := .placed, task := t, placedAt := s.now, backing := backing }
  let s := { s with gangs := Map.set s.gangs gang g }
  let s := if bitAt t.flags 2 then cores.foldl (fun s c => giveMatrix s gang c [] []) s else s
  s.modLaunch lk fun l => { l with placed := l.placed + 1, lastCluster := some cluster }

/-- The next gang of a launch is placed, if a cluster takes it; the answer says whether it was (23 R326). That a launch waits when the
save space has no room for the backing areas of the gang is the model's choice (log entry 13). -/
def placeNew (s : State) (lk : Nat) : State × Bool :=
  match Map.get? s.launches lk with
  | none => (s, false)
  | some l =>
    if l.done || l.task.ngang ≤ l.placed then (s, false) else
    match findCluster s l.part l.lastCluster l.task with
    | none => (s, false)
    | some (c, cids) =>
      let gang := freshKey s.gangs
      match takeBacking s l.part gang l.task with
      | none => (s, false)
      | some (s, b) => (placeOn s lk l c cids gang b, true)

/-- The lane groups a saved strand is placed with: the most its LG or a saved entry names (25 R352). -/
def needOf (t : Strand) : Nat := (entriesOf t.queue).foldl (fun m e => Nat.max m e.lg) t.v.lg

/-- The groups above LG leave as the entries that name them complete: each release of the saved queue gives up those that no
entry behind it names; `held` of the strand's groups are held before it (R352, 02 R21). -/
def remapQueue (groups : List Nat) (lg : Nat) : Nat → List QItem → List QItem
  | _, [] => []
  | held, .dropGroups k _ :: rest =>
    let n := (entriesOf rest).foldl (fun m e => Nat.max m e.lg) lg
    .dropGroups k ((groups.take held).drop n) :: remapQueue groups lg (Nat.min held n) rest
  | held, .entry e :: rest => .entry e :: remapQueue groups lg held rest
  | held, .dropSlots lo hi :: rest => .dropSlots lo hi :: remapQueue groups lg held rest

/-- A strand as its saved context gives it: its strand block, or without one the state kept beside it; refilled stream
positions are discarded, and so are elements of a VLD that were read before the others (25 R347 R353). -/
def restored (s : State) (x : Gang) (t : Strand) : Strand :=
  let t := if x.ctx = 0 then { t with queue := t.queue.map fun q => match q with
      | .entry e => .entry { e with early := [] }
      | .dropGroups k f => .dropGroups k f
      | .dropSlots lo hi => .dropSlots lo hi }
    else restoreStrand (s.mem.read (x.ctx + strandOffset x t.id.sidx) strandBlockMax) t
  { t with v := { t.v with streams := t.v.streams.map fun q => { q with ahead := [] } } }

/-- The strand stopped for a fault of its own, not for its gang's rotation. -/
def ownStop (t : Strand) : Bool :=
  t.status == .stopped && (match t.stopped with
    | some e => e.cause != .preempt
    | none => false)

/-- A gang that moves from one core to another keeps what its releases cover: the lines in the core's signature and those of landed
copies that no CDRAIN has completed, and what its barriers carry (15 R281, 17 R300 R301). -/
def carryOver (g old new : Nat) (s : State) : State :=
  if old = new then s else
  let o := s.core old
  let mine := fun (p : Nat × BarSig) => p.1 / 2 ^ 20 == g
  let s := s.modCore new fun x => { x with
    written := unionList x.written o.written
    chans := o.chans.foldl (fun m p => if p.2.landed.isEmpty then m else
      let c := Map.getD m p.1 {}
      Map.set m p.1 { c with landed := unionList c.landed p.2.landed }) x.chans
    barSig := (o.barSig.filter mine).foldl (fun m p => Map.set m p.1 p.2) x.barSig }
  s.modCore old fun x => { x with barSig := x.barSig.filter fun p => !mine p }

/-- A saved strand seated again on a core of its CID, restored from its strand block (25 R352 R353). One that stopped for
a fault of its own stays stopped (R354). -/
def seatAgain (s : State) (x : Gang) (p : Nat × Strand) : State × Nat :=
  let core := x.cluster * 8 + cidOfCore (coreOfKey p.1)
  let t := restored s x p.2
  let t := if ownStop t then t else { t with status := .placed, wait := {}, owed := [], stopped := none }
  let (s, k) := seat s core (needOf t) t
  let s := s.modStrand k fun t => { t with
    queue := remapQueue t.v.groups t.v.lg t.v.groups.length t.queue
    v := { t.v with groups := t.v.groups.take t.v.lg } }
  (s.asStrand k fun s => settleMarkers s s.me.queue, k)

/-- The demands of a pre-empted gang on one of its cores. -/
def fitsAgain (s : State) (x : Gang) (cluster cid : Nat) : Bool :=
  let ts := x.saved.filter fun p => cidOfCore (coreOfKey p.1) == cid
  coreFits s (cluster * 8 + cid) ts.length ((ts.map fun p => needOf p.2).sum) x.task.spad x.mx

/-- Places a pre-empted gang again, with the same CIDs, in the first cluster that takes it (25 R352). In another cluster its pages
reach their cores through their backing areas (05 R74; log entry 13). -/
def placeAgain (s : State) (g : Nat) : State × Bool :=
  match s.gang? g with
  | none => (s, false)
  | some x =>
    if x.state ≠ .preempted then (s, false) else
    match (searchOrder s x.part none).find? fun c => x.cids.all fun cid => fitsAgain s x c cid with
    | none => (s, false)
    | some c =>
      let s := if c = x.cluster then s else x.cids.foldl (fun s cid =>
        ((upto x.task.spad).filter fun i => !x.evicted.contains (cid, i)).foldl (fun s i => evictPage s g cid i) s) s
      let s := s.modGang g fun x => { x with cluster := c, state := .placed, placedAt := s.now, saved := [] }
      match s.gang? g with
      | none => (s, false)
      | some y =>
        let s := y.cores.foldl (fun s k => takeFrames s k 0) s
        let s := x.cids.foldl (fun s cid => carryOver g (x.cluster * 8 + cid) (c * 8 + cid) s) s
        let (s, keys) := x.saved.foldl (fun (q : State × List Nat) p =>
          let (s, k) := seatAgain q.1 y p
          (s, q.2 ++ [k])) (s, [])
        let s := s.modGang g fun x => { x with keys := keys }
        let s := if x.mx then x.cids.zipIdx.foldl (fun s p =>
            let (tiles, acc) := Map.getD x.mat p.1 ([], [])
            if x.ctx = 0 then giveMatrix s g (c * 8 + p.1) tiles acc
            else
              let b := s.mem.read (x.ctx + matrixOffset x p.2) matrixBlockMax
              giveMatrix s g (c * 8 + p.1) (readTiles b) (readAcc b)) s
          else s
        (s, true)

/-- Pre-empted gangs of a partition, earliest first. -/
def preemptedOf (s : State) (keep : Gang → Bool) : List Nat :=
  let gs := s.gangs.filter fun p => p.2.state == .preempted && keep p.2
  let rec best : List (Nat × Gang) → Option (Nat × Gang)
    | [] => none
    | p :: rest =>
      match best rest with
      | none => some p
      | some q => if q.2.stoppedAt < p.2.stoppedAt then some q else some p
  let rec sorted : Nat → List (Nat × Gang) → List Nat
    | 0, _ => []
    | n + 1, l =>
      match best l with
      | none => []
      | some p => p.1 :: sorted n (l.filter fun q => q.1 != p.1)
  sorted gs.length gs

/-- The first of some pre-empted gangs that fits is placed again. -/
def placeFirst (s : State) : List Nat → State × Bool
  | [] => (s, false)
  | g :: rest =>
    match placeAgain s g with
    | (s, true) => (s, true)
    | (_, false) => placeFirst s rest

/-- All floors of a gang's strands are awake (R329). -/
def floorsAwake (s : State) (g : Nat) : Bool :=
  (residentOf s g).all fun p => !((s.core (coreOfKey p.1)).groups.any fun x => x.owner == some (slotOfKey p.1) && x.asleep)

/-- The timed ramp: LSTART + 62.5 ns × the cluster's number, compared in half nanoseconds (R329). -/
def rampMet (s : State) (x : Gang) (lstart : Nat) : Bool :=
  x.task.start == 0 || decide (2 * lstart + 125 * x.cluster ≤ 2 * s.now)

/-- Once no strand of a running gang is stopped, those that wait for it go on (22 R316, 25 R354). -/
def wakeGang (s : State) (g : Nat) : State :=
  match s.gang? g with
  | none => s
  | some x =>
    if x.state ≠ .running ∨ (residentOf s g).any fun p => p.2.status == .stopped then s
    else (residentOf s g).foldl (fun s p => s.modStrand p.1 fun t =>
      if t.status = .placed then { t with status := .ready } else t) s

/-- The instruction cache of a core gives up every line. -/
def dropCode (core : Nat) (s : State) : State := if (s.core core).icache.isEmpty then s else s.modCore core fun x => { x with icache := [] }

/-- The scope of the acquire that a launch's strands start with: DEVICE for a task that ENQ submitted, SYSTEM for one that the host wrote, and
for one with dependences, whose evaluation was an acquire at SYSTEM scope (11 R205, 16 R296, 23 R323; log entry 79). -/
def startScope (l : Launch) : Scope := if l.byEnq && l.task.deps.isEmpty then .device else .system

/-- A placed gang issues its first instructions: its strands become ready and start with an acquire, which meets the release of
an ENQ (02 R25, 16 R296, 11 R205); their fetches see what memory holds by then, as those of a resumed gang must (26 R355; log entry
64). -/
def startGang (s : State) (g : Nat) : State :=
  match s.gang? g with
  | none => s
  | some x =>
    let lstart := ((residentOf s g).head?.map fun p => p.2.id.lstart).getD 0
    if x.state ≠ .placed ∨ !floorsAwake s g ∨ !rampMet s x lstart then s else
    let (sc, sig) := match Map.get? s.launches x.launch with
      | some l => (startScope l, l.sig)
      | none => (.system, [])
    let s := x.cores.foldl (fun s c => dropCode c (acquire s (engineAgent c g) sc sig)) s
    wakeGang (s.modGang g fun x => { x with state := .running }) g

end Sys2Proof.Machine
end

