-- ==== Sys2Proof/Machine/Sched.lean ====
section
/-! DEFINITION. The dispatch unit of a partition (23_scheduling): queue descriptors and task records in memory (R319 R321),
the checks of a queue head (R322 R324), dependences and eligibility (R323), the choice of a task (R325), completion (R327),
stall rotation (R328), and ENQ at the queue (11 R204). -/

namespace Sys2Proof.Machine

/-! Queue descriptors (R319). -/

structure QueueDesc where
  base : Word
  size : Nat
  state : Nat
  widx : Nat
  ridx : Nat
  reserved : Bool
  deriving DecidableEq, Repr

def descAddr (s : State) (p q : Nat) : Nat := (s.part p).savebase.toNat + 64 * q

def descOf (s : State) (p q : Nat) : QueueDesc :=
  let b := s.mem.read (descAddr s p q) 64
  { base := BitVec.ofNat 64 (blk b 0 8), size := blk b 8 4, state := blk b 12 1, widx := blk b 16 4, ridx := blk b 20 4
    reserved := blk b 14 2 != 0 || blk b 24 40 != 0 }

/-- SIZE is a power of two from 2 to 65,536. -/
def sizeGood (n : Nat) : Bool := (upto 16).any fun k => n == 2 ^ (k + 1)

/-- A malformed descriptor (R319). -/
def QueueDesc.malformed (d : QueueDesc) : Bool := d.reserved || d.base.toNat % 128 != 0 || !sizeGood d.size

/-- Records in the ring: WIDX − RIDX (R320). -/
def QueueDesc.filled (d : QueueDesc) : Nat := (d.widx + 2 ^ 32 - d.ridx) % 2 ^ 32

/-- The address of slot i (R319). -/
def QueueDesc.slot (d : QueueDesc) (i : Nat) : Word := d.base + BitVec.ofNat 64 (128 * (i % d.size))

/-- The die of the dispatch unit that reads a partition's queues: that of its lowest cluster (R319). -/
def dispatchDie (s : State) (p : Nat) : Nat := p * 32 / s.nparts / 8

def dispatchAgent (s : State) (p : Nat) : Agent := hwAgent p (dispatchDie s p)

/-- What the dispatch unit keeps of a queue. -/
def State.queueInfo (s : State) (p q : Nat) : QueueInfo := Map.getD (s.part p).queues q {}

def State.setQueueInfo (s : State) (p q : Nat) (x : QueueInfo) : State :=
  s.modPart p fun y => { y with queues := Map.set y.queues q x }

/-- The launch that a dispatch unit serves, once it has started: its gang 0 is placed (R325). -/
def servedStarted (s : State) (p : Nat) : Option Launch :=
  match (s.part p).serving with
  | none => none
  | some lk => (Map.get? s.launches lk).filter fun l => l.placed != 0

/-- The head of a queue is a task that the dispatch unit serves and that has started (R325). -/
def headServed (s : State) (p q : Nat) : Bool :=
  match servedStarted s p with
  | some l => l.queue == q
  | none => false

/-- A head that is not served is read again after a restart; the next record becomes head only once a served one has placed every
gang (R319 R320 R325). -/
def forgetHead (s : State) (p q : Nat) : State :=
  if headServed s p q then s
  else s.setQueueInfo p q { s.queueInfo p q with head := none, release := none, depsMet := false }

/-- A queue stops: STATE 0, FCAUSE, and a record of KIND 3 that names the queue and the index, with what follows the record (R319
R322 R327, 25 R343). -/
def stopQueue (s : State) (p q index : Nat) (t : Trap) (next : Option AfterRec := none) : State :=
  let s := forgetHead (physWrite s (descAddr s p q + 12) [0, BitVec.ofNat 8 t.cause.code]) p q
  postUnit s p (dispatchDie s p * 256) 3 { t with info := BitVec.ofNat 64 (q % 64 + index % 2 ^ 32 * 2 ^ 32) } next

/-- The link to the host is up: from the stage DIES on (27 R359). -/
def State.linkUp (s : State) : Bool := s.stage == .dies || s.stage == .ready

/-- The dispatch unit rereads a descriptor after a write of WIDX or STATE (R319 R320); before READY it reads none (27
R359). -/
def rereadDesc (s : State) (p q : Nat) : State :=
  let d := descOf s p q
  if s.stage ≠ .ready ∨ d.state ≠ 1 then s
  else if d.malformed || decide (d.size < d.filled) then stopQueue s p q d.ridx { cause := .queueRecord }
  else s

/-- Every descriptor of every partition is read when the part becomes READY (27 R359). -/
def rereadAll (s : State) : State :=
  (upto s.nparts).foldl (fun s p => (upto 64).foldl (fun s q => rereadDesc s p q) s) s

/-! Task records (R321 R322). -/

def taskOf (b : List Byte) : TaskRec :=
  let f := fun o n => blk b o n
  let w := fun o => BitVec.ofNat 64 (f o 8)
  { pc := w 0, ngang := f 8 4, nstr := f 12 1, ncore := f 13 1, floor := f 14 1, regs := f 15 1, spad := f 16 1
    prio := f 17 1, flags := f 18 1, msixv := f 20 2, start := f 24 8, ccnt := w 32, cinc := w 40, larg := w 48
    deps := (upto (Nat.min (f 19 1) 4)).map fun j => (w (64 + 16 * j), w (72 + 16 * j)) }

/-- The record fails one of the checks of R322. -/
def recordBad (b : List Byte) : Bool :=
  let t := taskOf b
  let ndep := blk b 19 1
  let unused := (upto 4).any fun j => decide (ndep ≤ j) && blk b (64 + 16 * j) 16 != 0
  decide (7 < t.prio) || decide (7 < t.flags) || blk b 22 2 != 0 || blk b 56 8 != 0 || unused
  || t.pc.toNat % 4 != 0 || bitsOf t.pc.toNat 63 48 != 0
  || t.nstr == 0 || decide (32 < t.nstr) || t.ncore == 0 || decide (8 < t.ncore) || t.floor == 0 || decide (16 < t.floor)
  || t.regs == 0 || decide (10 < t.regs) || decide (64 < t.spad) || decide (4 < ndep) || decide (2047 < t.msixv)
  || (t.msixv != 0 && !bitAt t.flags 1)
  || t.nstr % t.ncore != 0 || decide (4 < t.nstr / t.ncore)
  || decide (16 < t.floor * (t.nstr / t.ncore))
  || t.ccnt.toNat % 8 != 0 || t.deps.any fun d => d.1.toNat % 8 != 0

/-- The dispatch unit reads a descriptor as memory holds it now, whoever has written WIDX or STATE, and the record at RIDX becomes
the head of its queue if it passes its checks; of an absent queue it reads no slot (R319 R322 R324). -/
def readHead (s : State) (p q : Nat) : State :=
  let d := descOf s p q
  if s.stage ≠ .ready then s
  else if d.state ≠ 1 then (if (s.queueInfo p q).head.isSome then forgetHead s p q else s)
  else if d.malformed || decide (d.size < d.filled) then stopQueue s p q d.ridx { cause := .queueRecord }
  else if d.base = 0 then s
  else if (s.queueInfo p q).head.isSome || d.filled == 0 then s
  else
    let ag := dispatchAgent s p
    let a := d.slot d.ridx
    let s := touch s ag a
    match check s ag .hwRead a 128 128 with
    | .error t => stopQueue s p q d.ridx t
    | .ok pl =>
      let (s, b) := readPieces ag .uc pl.loc 16 s
      if recordBad b then stopQueue s p q d.ridx { cause := .queueRecord }
      else if 2 ^ 24 ≤ (taskOf b).ngang then stopQueue s p q d.ridx { cause := .launchRange }
      else s.setQueueInfo p q { s.queueInfo p q with head := some (taskOf b), index := d.ridx, since := s.now, depsMet := false,
                                                     release := none, byEnq := (s.part p).qopen.getLsbD q }

/-! Eligibility (R323). -/

/-- The dependence words, read at their homes: whether all are met, with the releases that come with them, or the fault. -/
def depsState (ag : Agent) : List (Word × Word) → State → State × Except Trap (Bool × Sig)
  | [], s => (s, .ok (true, []))
  | (a, v) :: rest, s =>
    let s := touch s ag a
    match check s ag .hwRead a 8 8 with
    | .error t => (s, .error t)
    | .ok pl =>
      let sig := sigOf s pl.loc 8
      let (s, b) := readAt s ag .uc pl.loc 8
      match depsState ag rest s with
      | (s, .error t) => (s, .error t)
      | (s, .ok (m, l)) => (s, .ok (m && decide (v.toNat ≤ natOfBytes b), unionList sig l))

/-- The dispatch unit of a partition among the units that release and acquire (15 R274). -/
def dispatchUnit (s : State) (p : Nat) : Agent :=
  { dispatchAgent s p with unit := some (Config.dispatchBase + dispatchDie s p) }

/-- The dispatch unit acquires at SYSTEM scope the releases that met dependences carry; the gangs of the task start with what it has
received (R323, 15 R281, 16 R295 R296). -/
def acquireDeps (s : State) (p q : Nat) (sig : Sig) : State :=
  let u := Config.dispatchBase + dispatchDie s p
  let s := acquire s (dispatchUnit s p) .system sig
  let lines := linesFor u (sig.filter (·.pairs u .system))
  if lines.isEmpty then s
  else s.setQueueInfo p q { s.queueInfo p q with
    sig := unionList (s.queueInfo p q).sig [{ unit := u, scope := .system, lines := lines }] }

/-- The conditions of a queue's head are evaluated, until its task has started: with all of them met it is eligible, and with one not met it
is eligible no more. Where everything but START was found met before, or nothing but START was to be met, it became eligible at START
itself, else at this moment; one that was eligible stays so from the moment it was found (R323). -/
def evaluateHead (s : State) (p q : Nat) : State :=
  let x := s.queueInfo p q
  match x.head, headServed s p q with
  | some t, false =>
    match depsState (dispatchAgent s p) t.deps s with
    | (s, .error e) => stopQueue s p q x.index e
    | (s, .ok (met, sig)) =>
      let s := if met && !t.deps.isEmpty then acquireDeps s p q sig else s
      let free := !bitAt t.flags 0 || x.open_.isEmpty
      let early := x.depsMet || (t.deps.isEmpty && !bitAt t.flags 0 && decide (x.since ≤ t.start))
      s.setQueueInfo p q { s.queueInfo p q with
        depsMet := met && free
        release := if met && free && decide (t.start ≤ s.now) then some (x.release.getD (if early then t.start else s.now)) else none }
  | _, _ => s

/-- Every head of a partition is evaluated again after its dispatch unit has written a counter (R323). -/
def evaluateAll (s : State) (p : Nat) : State := (upto 64).foldl (fun s q => evaluateHead s p q) s

/-! Completion (R327). -/

/-- The completion counter: an AMOADD at the word's home that releases at SYSTEM scope what the part has written (R327, 16
R296). -/
def countCompletion (s : State) (p : Nat) (t : TaskRec) : State × Option Trap :=
  if t.ccnt = 0 then (s, none) else
  let ag := dispatchAgent s p
  let s := touch s ag t.ccnt
  match check s ag .hwWrite t.ccnt 8 8 with
  | .error e => (s, some e)
  | .ok pl =>
    let rel : Release := { unit := Config.dispatchBase + ag.die, scope := .system,
                           lines := s.cores.foldl (fun l c => unionList l c.2.written) [] }
    ((rmwAt s ag .uc pl.loc 8 [rel] fun old => (old + t.cinc.toNat) % 2 ^ 64).1, none)

/-- A launch completes: its strands' stores are performed, the counter is written, the vector sent, waiting BARRIER tasks are told.
After a fault of the counter write the vector follows the fault record (R327, 16 R296). -/
def completeLaunch (s : State) (lk : Nat) : State :=
  match Map.get? s.launches lk with
  | none => s
  | some l =>
    let ks := s.strands.filterMap fun p => if !p.2.fliven && p.2.id.launch == lk then some p.1 else none
    let s := ks.foldl drainStrand s
    let (s, bad) := countCompletion s l.part l.task
    let msix := bitAt l.task.flags 1
    let s := match bad with
      | none => if msix then { s with msix := s.msix ++ [(l.part, l.task.msixv)] } else s
      | some t => stopQueue s l.part l.queue l.index t (if msix then some (.message l.task.msixv) else none)
    let s := s.setQueueInfo l.part l.queue { s.queueInfo l.part l.queue with
      open_ := (s.queueInfo l.part l.queue).open_.filter (· != lk) }
    evaluateAll { s with launches := Map.erase s.launches lk } l.part

/-- No gang of a launch is left, and none is still to come (R327). -/
def launchOver (l : Launch) : Bool := (l.done || l.placed == l.task.ngang) && l.ended == l.placed

/-! Choice and placement (R325 R326). -/

/-- The effective priority of a head (R325). -/
def effectivePrio (s : State) (x : QueueInfo) (t : TaskRec) : Nat := t.prio + (s.now - x.since) / Config.oneMilli

/-- The better of two candidates: effective priority, then the earlier head, then the lower queue (R325). -/
def better (s : State) (a b : Nat × QueueInfo × TaskRec) : Bool :=
  let pa := effectivePrio s a.2.1 a.2.2
  let pb := effectivePrio s b.2.1 b.2.2
  decide (pb < pa) || (pa == pb && decide (a.2.1.since < b.2.1.since))
    || (pa == pb && a.2.1.since == b.2.1.since && decide (a.1 < b.1))

/-- The eligible heads of a partition, of queues that run (R319 R323). -/
def eligibleHeads (s : State) (p : Nat) : List (Nat × QueueInfo × TaskRec) :=
  (s.part p).queues.filterMap fun x => match x.2.head, x.2.release with
    | some t, some _ => if (descOf s p x.1).state = 1 then some (x.1, x.2, t) else none
    | _, _ => none

/-- The head that comes first. -/
def bestHead (s : State) : List (Nat × QueueInfo × TaskRec) → Option (Nat × QueueInfo × TaskRec)
  | [] => none
  | a :: rest =>
    match bestHead s rest with
    | none => some a
    | some b => if better s a b then some a else some b

/-- RIDX passes the slot of a task that has started or completed at once (R320). -/
def passSlot (s : State) (p q index : Nat) : State :=
  physWrite s (descAddr s p q + 20) (bytesOfNat 4 ((index + 1) % 2 ^ 32))

/-- A task that is served and has not started is served no more. -/
def dropUnstarted (s : State) (p : Nat) : State :=
  match (s.part p).serving with
  | none => s
  | some lk => { s.modPart p fun y => { y with serving := none } with launches := Map.erase s.launches lk }

/-- The dispatch unit takes the eligible head of highest effective priority, until the task it serves has started: as the timeline of
R325 shows, a head that comes first when room is found starts before one that came first earlier (R325). A task without gangs completes
at once (R324). That each of two partitions with clusters on one die has a task served there is the model's choice (01 R6; log entry
74). -/
def selectTask (s : State) (p : Nat) : State :=
  if (servedStarted s p).isSome then s else
  let s := dropUnstarted s p
  match bestHead s (eligibleHeads s p) with
  | none => s
  | some (q, x, t) =>
    let lk := freshKey s.launches
    let l : Launch := { part := p, queue := q, index := x.index, task := t, lstart := x.release.getD 0, byEnq := x.byEnq, sig := x.sig }
    let s := { s with launches := Map.set s.launches lk l }
    if t.ngang = 0 then
      let s := passSlot s p q x.index
      let s := s.setQueueInfo p q { x with head := none, release := none, depsMet := false }
      completeLaunch s lk
    else s.modPart p fun y => { y with serving := some lk }

/-- The next gang of the served launch is placed; with its gang 0 the task has started (R320 R325). -/
def placeServed (s : State) (p lk : Nat) : State :=
  match placeNew s lk with
  | (s, false) => s
  | (s, true) =>
    let s := match Map.get? s.launches lk with
      | some l =>
        if l.placed = 1 then
          let s := passSlot s p l.queue l.index
          s.setQueueInfo p l.queue { s.queueInfo p l.queue with open_ := (s.queueInfo p l.queue).open_ ++ [lk] }
        else s
      | none => s
    endServing s lk

/-- The choice of a task that has not started, made at this moment (R325). -/
def chooseAgain (s : State) (p : Nat) : State := if (s.part p).serving.isSome then selectTask s p else s

/-- One placement of a partition: the pre-empted gang that fits and was pre-empted earliest, before any unplaced gang of its launch;
while a task is served, no gang of another one. A task that has not started is chosen again first (R325 R326 R328). -/
def placeOne (s : State) (p : Nat) : State :=
  let s := chooseAgain (reapGangs s) p
  match (s.part p).serving with
  | none => (placeFirst s (preemptedOf s fun g => g.part == p)).1
  | some lk =>
    match preemptedOf s fun g => g.launch == lk with
    | [] => placeServed s p lk
    | gs => (placeFirst s gs).1

/-! Stall rotation (R328). -/

/-- The resident gangs of a launch have all slept for longer than STALLINT while others wait. -/
def rotationDue (s : State) (lk : Nat) (l : Launch) : Bool :=
  let res := s.gangs.filter fun p => p.2.launch == lk && p.2.isResident
  let waits := (!l.done && decide (l.placed < l.task.ngang)) || s.gangs.any fun p => p.2.launch == lk && p.2.state == .preempted
  waits && !res.isEmpty && res.all fun p => match gangSlept s p.1 p.2 with
    | none => false
    | some t => decide ((s.part l.part).stallint < s.now - t)

/-- The gang that has slept longest; ties go to the higher GID. -/
def longestAsleep (s : State) : List (Nat × Gang) → Option (Nat × Gang)
  | [] => none
  | a :: rest =>
    match longestAsleep s rest with
    | none => some a
    | some b =>
      let ta := (gangSlept s a.1 a.2).getD s.now
      let tb := (gangSlept s b.1 b.2).getD s.now
      if ta < tb ∨ (ta = tb ∧ b.2.gid < a.2.gid) then some a else some b

/-- The save space holds the context of a gang, or has it already. -/
def contextRoom (s : State) (g : Nat) : Bool :=
  match (allotContext s g).gang? g with
  | some x => x.ctx != 0
  | none => false

/-- The two steps of a rotation for a gang that may stop now; without room for its context the launch ends (R328). -/
def rotate (s : State) (lk g : Nat) : State :=
  if !contextRoom s g then
    endLaunch (s.modLaunch lk fun l => { l with endCause := some .stallCapacity }) lk
  else
    let s := stopGang s g false
    match (preemptedOf s fun x => x.launch == lk).filter (· != g) with
    | h :: _ => (placeAgain s h).1
    | [] =>
      match Map.get? s.launches lk with
      | some l => if (s.part l.part).serving = some lk then placeServed s l.part lk else s
      | none => s

/-- STALL_ROTATION of a launch: PD, and answers on the way, hold it off (R328, 22 R307). -/
def rotateLaunch (s : State) (lk : Nat) : State :=
  match Map.get? s.launches lk with
  | none => s
  | some l =>
    if !rotationDue s lk l then s else
    match longestAsleep s (s.gangs.filter fun p => p.2.launch == lk && p.2.isResident) with
    | none => s
    | some (g, x) =>
      let since := (x.stopReq.map Prod.fst).getD s.now
      if stopHeld s g since then s.modGang g fun x => { x with stopReq := some (x.stopReq.getD (since, false)) }
      else rotate s lk g

/-- A request to stop a gang that waited: it proceeds once nothing holds it off (22 R307). -/
def heedStop (s : State) (g : Nat) : State :=
  match s.gang? g with
  | none => s
  | some x =>
    match x.stopReq with
    | none => s
    | some (since, halt) =>
      if !x.isResident ∨ stopHeld s g since then s
      else if halt then stopGang s g true else rotate s x.launch g

/-! ENQ (11 R204). -/

/-- The queue's descriptor lies in a lost line (27 R364). -/
def descLost (s : State) (p q : Nat) : Bool := s.lost (descAddr s p q) 64

/-- A queue that ENQ may write (11 R204). -/
def openToEnq (s : State) (p q : Nat) : Bool :=
  (s.part p).qopen.getLsbD q && (descOf s p q).base != 0 && !(descOf s p q).malformed

/-- The record is written into its slot and WIDX advances, with the release of the ENQ, which stays with WIDX and with the task, or the
fault of the slot (11 R204 R205, 15 R280 R285). -/
def enqueue (s : State) (p q : Nat) (rec : List Byte) (sig : Sig) : State × Option Trap :=
  let d := descOf s p q
  let ag := dispatchAgent s p
  let a := d.slot d.widx
  let s := touch s ag a
  match check s ag .hwWrite a 128 128 with
  | .error t => (s, some t)
  | .ok pl =>
    let s := writePieces ag .uc pl.loc rec 16 s
    let s := physWrite s (descAddr s p q + 16) (bytesOfNat 4 ((d.widx + 1) % 2 ^ 32))
    let s := { s with lineSig := putSigs s.lineSig (descAddr s p q + 16) 4 sig }
    let s := s.setQueueInfo p q { s.queueInfo p q with sig := unionList (s.queueInfo p q).sig sig }
    (rereadDesc s p q, none)

end Sys2Proof.Machine
end

