-- ==== Sys2Proof/Machine/Control.lean ====
section
/-! DEFINITION. The control thread (11_ref_control): jumps and branches, grants and strip-mining, the window and the
allotment, control registers, issue and exit, traps, gates and time. -/

namespace Sys2Proof.Machine

/-! Jumps and branches (R183 R187 R188). -/

/-- The target of a relative transfer: PC + sext(offset) × 4. -/
def relTarget {n : Nat} (pc : Word) (o : BitVec n) : Word := pc + (o.signExtend 64 <<< 2)

/-- JR (R183). -/
def execJr (a : SReg) (s : State) : Out :=
  .next (named [a] s fun s => match jumpTrap (s.rd a) with
    | some t => scalarTrap (.jr a) t s
    | none => s.goto (s.rd a))

/-- CALLR: the link is written after the target is read (R183). -/
def execCallr (a : SReg) (s : State) : Out :=
  .next (named [a, 63] s fun s => match jumpTrap (s.rd a) with
    | some t => scalarTrap (.callr a) t s
    | none => (s.wr 63 (s.me.pc + 4)).goto (s.rd a))

/-- A branch on two registers (R187). -/
def branchOp (a b : SReg) (o : BitVec 12) (c : Word → Word → Bool) (s : State) : State :=
  named [a, b] s fun s => if c (s.rd a) (s.rd b) then s.goto (relTarget s.me.pc o) else s.retire

def execBeq (a b : SReg) (o : BitVec 12) (s : State) : Out := .next (branchOp a b o (fun x y => x == y) s)
def execBne (a b : SReg) (o : BitVec 12) (s : State) : Out := .next (branchOp a b o (fun x y => x != y) s)
def execBlt (a b : SReg) (o : BitVec 12) (s : State) : Out := .next (branchOp a b o (fun x y => x.slt y) s)
def execBge (a b : SReg) (o : BitVec 12) (s : State) : Out := .next (branchOp a b o (fun x y => !x.slt y) s)
def execBltn (a b : SReg) (o : BitVec 12) (s : State) : Out := .next (branchOp a b o (fun x y => x.ult y) s)
def execBgen (a b : SReg) (o : BitVec 12) (s : State) : Out := .next (branchOp a b o (fun x y => !x.ult y) s)
def execBbs (a b : SReg) (o : BitVec 12) (s : State) : Out :=
  .next (branchOp a b o (fun x y => x.getLsbD (y.toNat % 64)) s)
def execBbc (a b : SReg) (o : BitVec 12) (s : State) : Out :=
  .next (branchOp a b o (fun x y => !x.getLsbD (y.toNat % 64)) s)

/-- J (R188). -/
def execJ (o : BitVec 25) (s : State) : Out := .next (s.goto (relTarget s.me.pc o))

/-- CALL (R188). -/
def execCall (o : BitVec 25) (s : State) : Out :=
  .next (named [63] s fun s => (s.wr 63 (s.me.pc + 4)).goto (relTarget s.me.pc o))

/-! Grants (R189 to R193). -/

/-- The pointers of STRIP advanced by the consumed grant (R190). -/
def stripPointers (c : SReg) (sizes : Nat) (v : Nat) (n : Nat) (s : State) : State :=
  (upto n).foldl (fun s i =>
    let r := c + BitVec.ofNat 6 (i + 1)
    s.wr r (s.rd r + BitVec.ofNat 64 (v * 2 ^ bitsOf sizes (2 * i + 1) (2 * i)))) s

/-- STRIP: consumes the grant and regrants at the width of the last one (R190). -/
def stripNow (c : SReg) (n : BitVec 2) (sz : BitVec 8) (o : BitVec 10) (s : State) : State :=
  let v := s.me.v.vl
  let left := s.rd c - BitVec.ofNat 64 (Nat.min v (s.rd c).toNat)
  let s := stripPointers c sz.toNat v (n.toNat + 1) (s.wr c left)
  if left = 0 then s.retire
  else (grant s left.toNat s.me.v.vw).1.goto (relTarget s.me.pc o)

def execStrip (c : SReg) (n : BitVec 2) (sz : BitVec 8) (o : BitVec 10) (s : State) : Out :=
  .next (computeOnly (.strip c n sz o) s fun s =>
    named ((upto (n.toNat + 2)).map fun i => c + BitVec.ofNat 6 i) s (stripNow c n sz o))

/-- SETVL (R191). -/
def setvlNow (d a : SReg) (w : BitVec 2) (s : State) : State :=
  let (s, n) := grant s (s.rd a).toNat w.toNat
  (s.wr d (BitVec.ofNat 64 n)).retire

def execSetvl (d a : SReg) (w : BitVec 2) (s : State) : Out :=
  .next (computeOnly (.setvl d a w) s fun s => named [d, a] s (setvlNow d a w))

/-- WINDOW (R192). -/
def execWindow (a : BitVec 6) (s : State) : Out :=
  .next (computeOnly (.window a) s fun s => (s.modMe fun t => { t with v := { t.v with wb := 16 * a.toNat } }).retire)

/-- Sets VALC. -/
def setValc (n : Nat) (s : State) : State := s.modMe fun t => { t with v := { t.v with valc := n } }

/-- VALLOC: the slots it adds read as zero with tag RAW (R193 R194). -/
def execValloc (a : BitVec 6) (s : State) : Out :=
  .next (computeOnly (.valloc a) s fun s =>
    if 16 * a.toNat < s.me.v.valc then scalarTrap (.valloc a) { cause := .illegal } s
    else (setValc (16 * a.toNat) s).retire)

/-- VSHRINK: the slots it releases are lost in queue order (R193 R194). -/
def execVshrink (a : BitVec 6) (s : State) : Out :=
  .next (computeOnly (.vshrink a) s fun s =>
    let old := s.me.v.valc
    if old < 16 * a.toNat then scalarTrap (.vshrink a) { cause := .illegal } s
    else if old = 16 * a.toNat then s.retire
    else (pushItem (setValc (16 * a.toNat) s) (.dropSlots (16 * a.toNat) old)).retire)

/-! Control registers (R195 R196, 03_state R41). -/

/-- The value of a control register, reserved bits zero; none for a number outside the map (03 R41). -/
def controlReg (s : State) (n : Nat) : Option Word :=
  let t := s.me
  let w := fun (x : Nat) => some (BitVec.ofNat 64 x)
  match n with
  | 0x000 => w t.v.vl | 0x001 => w t.v.vw | 0x002 => w t.v.lg | 0x003 => w t.v.wb | 0x004 => w t.v.valc
  | 0x005 => w t.vcp | 0x006 => w (entriesOf t.queue).length
  | 0x010 => some t.fcsr | 0x011 => w t.efc.toNat | 0x012 => some t.hspan | 0x013 => some t.wto
  | 0x014 => some t.traph | 0x015 => some t.glink | 0x016 => w t.glevel.num
  | 0x020 => w t.id.gid | 0x021 => w t.id.sidx | 0x022 => w t.id.nstr | 0x023 => w t.id.ngang | 0x024 => some t.id.larg
  | 0x025 => w (cidOfCore s.myCore) | 0x026 => w (clusterOfCore s.myCore % 8) | 0x027 => w (dieOfKey s.key)
  | 0x028 => w t.id.pid | 0x030 => w s.now | 0x031 => w t.id.lstart
  | _ => none

/-- The numbers a Fliven strand may name: NOW, DID, WTO (22 R304). -/
def flivenNumber (n : Nat) : Bool := n == 0x030 || n == 0x027 || n == 0x013

/-- FCSR, EFC and HSPAN wait for every earlier entry (02 R13). -/
def waitsForQueue (n : Nat) : Bool := n == 0x010 || n == 0x011 || n == 0x012

/-- MFC (R195). -/
def mfcNow (d : SReg) (n : BitVec 12) (s : State) : State :=
  match controlReg s n.toNat with
  | none => scalarTrap (.mfc d n) { cause := .illegal } s
  | some x => (s.wr d x).retire

def execMfc (d : SReg) (n : BitVec 12) (s : State) : Out :=
  .next (if s.me.fliven && !flivenNumber n.toNat then scalarTrap (.mfc d n) { cause := .illegal } s
    else named [d] s fun s => if waitsForQueue n.toNat then emptied s (mfcNow d n) else mfcNow d n s)

/-- The value rules of MTC (R195). -/
def mtcAllowed (n : Nat) (x : Word) : Bool :=
  match n with
  | 0x010 => bitsOf x.toNat 63 17 == 0 && bitsOf x.toNat 15 13 == 0 && decide (bitsOf x.toNat 2 0 ≤ 4)
  | 0x011 => bitsOf x.toNat 63 32 == 0
  | 0x013 => true
  | 0x014 | 0x015 => bitsOf x.toNat 1 0 == 0 && bitsOf x.toNat 63 48 == 0
  | 0x016 => bitsOf x.toNat 63 2 == 0
  | _ => false

/-- A control register written (R195). -/
def putControl (n : Nat) (x : Word) (t : Strand) : Strand :=
  match n with
  | 0x010 => { t with fcsr := x }
  | 0x011 => { t with efc := BitVec.ofNat 32 x.toNat }
  | 0x013 => { t with wto := x }
  | 0x014 => { t with traph := x }
  | 0x015 => { t with glink := x }
  | 0x016 => { t with glevel := Level.ofNum x.toNat }
  | _ => t

/-- MTC (R195): privilege, then the value rule, then the wait, then the write. -/
def mtcNow (d : SReg) (n : BitVec 12) (s : State) : State :=
  if (n.toNat == 0x015 || n.toNat == 0x016) && s.me.level == .k then scalarTrap (.mtc d n) { cause := .privilege } s
  else if !mtcAllowed n.toNat (s.rd d) then scalarTrap (.mtc d n) { cause := .illegal } s
  else
    let put := fun (s : State) => (s.modMe (putControl n.toNat (s.rd d))).retire
    if waitsForQueue n.toNat then emptied s put else put s

def execMtc (d : SReg) (n : BitVec 12) (s : State) : Out :=
  .next (if s.me.fliven && !flivenNumber n.toNat then scalarTrap (.mtc d n) { cause := .illegal } s
    else named [d] s (mtcNow d n))

/-! Issue, exit and traps (R197 to R199). -/

/-- NOP (R197). -/
def execNop (s : State) : Out := .next s.retire

/-- The other ready strands of a core, in ascending place after a place (23 R330). -/
def otherReady (s : State) (core k : Nat) : List Nat :=
  let order := (upto 4).map fun i => core * 4 + (slotOfKey k + 1 + i) % 4
  order.filter fun j => j != s.key && (match Map.get? s.others j with
    | some t => t.isReady && !t.fliven
    | none => false)

/-- YIELD: every other ready strand of the core has a turn first (R197). -/
def execYieldTurn (s : State) : Out :=
  .next (let owed := if s.me.fliven then [] else otherReady s s.myCore s.key
    s.retire.modMe fun t => { t with owed := owed })

/-- EXIT (R198). -/
def execExit (s : State) : Out := .next (emptied s exitNow)

/-- TRAP: the code is in its record (R199, 25 R343). -/
def execTrap (code : BitVec 12) (s : State) : Out :=
  .next (scalarTrap (.trap code) { cause := .trap, info := BitVec.ofNat 64 code.toNat } s)

/-- BREAK (R199). -/
def execBrk (s : State) : Out := .next (scalarTrap .brk { cause := .break_ } s)

/-! Gates (R200 R201, 22_privileged R305 to R307). -/

/-- The entry of a gate, read at its home as 16 bytes without regard to page protection, after the strand's accesses to them, with an
acquire at DEVICE scope (22 R305, 15 R275). That the page may be of any type is the model's choice (log entry 76). -/
def gateEntry (s : State) (i : Nat) : State × Except Trap (List Byte) :=
  let a := (s.part s.me.part).gtbase + BitVec.ofNat 64 (16 * i)
  let s := touch s s.agent a
  match leafFor s s.agent a.toNat with
  | .error _ => (s, .error { cause := .gate })
  | .ok (e, big, _) =>
    let pa := leafPa e big a.toNat
    if releasing s pa then (s, .error { cause := .gate })
    else if s.lost pa 16 then (s, .error { cause := .dataLost, addr := a })
    else
      let l : Loc := .gen pa (leafType e) (bitsOf a.toNat 17 16)
      let s := drainReleases (drainBefore s l 16)
      let sig := sigOf s l 16
      let (s, b) := readAt s s.agent .uc l 16
      (acquire s s.agent .device sig, .ok b)

/-- The entry admits a caller of a level (22 R306). -/
def gateAdmits (b : List Byte) (lv : Level) : Bool :=
  let ctl := blk b 8 1
  let callers := blk b 10 1
  ctl == 5 && decide (blk b 9 1 < 4) && callers &&& 0xF3 == 0 && blk b 11 5 == 0
    && (jumpTrap (BitVec.ofNat 64 (blk b 0 8))).isNone && bitAt callers lv.num

/-- GATE with an empty queue (R200, 22 R306); one that clears PD lets a request that waited proceed (22 R307). -/
def gateNow (i : BitVec 12) (s : State) : State :=
  match gateEntry s i.toNat with
  | (s, .error t) => scalarTrap (.gate i) t s
  | (s, .ok b) =>
    if !gateAdmits b s.me.level then scalarTrap (.gate i) { cause := .gate } s
    else
      heedStop ((s.modMe fun t => { t with glink := t.pc + 4, glevel := t.level, level := .l, pd := bitAt (blk b 9 1) 0,
                                           fd := bitAt (blk b 9 1) 1 }).goto (BitVec.ofNat 64 (blk b 0 8))) s.me.id.gang

def execGate (i : BitVec 12) (s : State) : Out :=
  .next (computeOnly (.gate i) s fun s => emptied s (gateNow i))

/-- GRET with an empty queue (R201): with PD clear again, a request that waited proceeds (22 R307). -/
def gretNow (s : State) : State :=
  if s.me.level = .k ∨ s.me.glevel.num < s.me.level.num then scalarTrap .gret { cause := .privilege } s
  else match jumpTrap s.me.glink with
    | some t => scalarTrap .gret t s
    | none => heedStop (gateReturn s) s.me.id.gang

def execGret (s : State) : Out := .next (computeOnly .gret s fun s => emptied s gretNow)

/-! Time (R202 R203). -/

/-- The clock a strand reads: its core's; a Fliven core is kept under its strand's key. -/
def clockOf (s : State) : Nat := if s.me.fliven then s.key else s.myCore

/-- CLK (R202). -/
def execClk (d : SReg) (s : State) : Out :=
  .next (named [d] s fun s => (s.wr d (BitVec.ofNat 64 (s.core (clockOf s)).clk)).retire)

/-- A Fliven strand's wait ends early while the record queue of its partition holds records (22 R310). -/
def frqWakes (s : State) : Bool := s.me.fliven && (s.part s.me.fl.spid).frqhead != (s.part s.me.fl.spid).frqtail

/-- WAITUNTIL (R203). -/
def waitUntil (a : SReg) (s : State) : State :=
  if (s.rd a).toNat ≤ s.now ∨ frqWakes s then s.retire else sleepNow (.waituntil a) s

def execWaituntil (a : SReg) (s : State) : Out := .next (named [a] s (waitUntil a))

/-! Submitting tasks (R204 R205). -/

/-- The fault of ENQ at a descriptor in a lost line names it by its physical address (27 R364; log entry 63). -/
def descTrap (s : State) (p q : Nat) : Trap := { cause := .dataLost, addr := BitVec.ofNat 64 (descAddr s p q) }

/-- ENQ at the queue, its record read and released: it sleeps while the queue is full (R204). -/
def enqSlot (i : Instr) (p q : Nat) (rec : List Byte) (s : State) : State :=
  let d := descOf s p q
  if descLost s p q then scalarTrap i (descTrap s p q) s
  else if d.size ≤ d.filled then
    (sleepNow i s).modMe fun t => { t with wait := { t.wait with record := some rec } }
  else match enqueue s p q rec (releaseSig s s.agent .device) with
    | (s, some t) => scalarTrap i t s
    | (s, none) => s.retire

/-- ENQ (R204): checks, the record and the release come before the sleep. That the record is read with request type OWN is the model's
choice (log entry 30). -/
def enqNow (a b : SReg) (s : State) : State :=
  let i : Instr := .enq a b
  let q := (s.rd a).toNat
  let adr := s.rd b
  let p := s.me.part
  match s.me.wait.record with
  | some rec => enqSlot i p q rec s
  | none =>
    if 63 < q || !(s.part p).qopen.getLsbD q then scalarTrap i { cause := .protection } s
    else if descLost s p q then scalarTrap i (descTrap s p q) s
    else if !openToEnq s p q then scalarTrap i { cause := .protection } s
    else if adr.toNat % 128 ≠ 0 then scalarTrap i { cause := .misalign, addr := adr } s
    else
      let s := touch s s.agent adr
      match check s s.agent .load adr 128 128 with
      | .error t => scalarTrap i t s
      | .ok pl =>
        let (s, rec) := readPieces s.agent .own pl.loc 16 (drainPath s)
        enqSlot i p q rec s

def execEnq (a b : SReg) (s : State) : Out := .next (named [a, b] s (enqNow a b))

end Sys2Proof.Machine
end

