-- ==== Sys2Proof/Machine/Platform.lean ====
section
/-! DEFINITION. The steps of the platform (27_platform): start (R359), partitions (R357), power (R366), attestation (R361),
time (R362), soft errors and lost lines (R363 R364), sleeping lane groups (23 R329), copies that are dropped (05 R68, 15
R286, 16 R294), accesses from the host and from peers (16 R294, 24 R342), and the links (24 R338). -/

namespace Sys2Proof.Machine

/-! Start (R359). -/

/-- The stage as the status word shows it; 0 before power-good (log entry 9). -/
def Stage.code : Stage → Nat
  | .off => 0 | .safe => 1 | .dies => 2 | .ready => 3 | .failed => 7

/-- The status word at offset 0 of BAR0 (R359 R362). -/
def State.statusWord (s : State) : Nat := s.stage.code + if Config.oneMilli < s.timeOffset.natAbs then 8 else 0

/-- A stage is entered, or FAILED with a report on the management port. -/
def enterStage (next : Stage) (ok : Bool) (s : State) : State :=
  if ok then { s with stage := next } else logEntry { s with stage := .failed } 5 next.code

/-- Every Fliven strand stands at the firmware's entry point (log entry 8). -/
def startFliven (s : State) : State :=
  (upto Config.numFliven).foldl (fun s k => s.modStrand (Config.flivenBase + k) fun t => { t with pc := s.fwEntry }) s

def execPowerGood (ok : Bool) (s : State) : Out := .next (if s.stage = .off then enterStage .safe ok s else s)
def execDiesUp (ok : Bool) (s : State) : Out := .next (if s.stage = .safe then enterStage .dies ok s else s)
def execReady (ok : Bool) (entry : Word) (s : State) : Out :=
  .next (if s.stage ≠ .dies then s
    else if ok then rereadAll (startFliven { s with stage := .ready, fwEntry := entry })
    else enterStage .ready false s)

/-! The management port (R357 R361 R366). -/

/-- No resident gang, and every queue STOPPED (R357). -/
def partitionsIdle (s : State) : Bool :=
  (s.gangs.all fun p => !p.2.isResident)
    && (upto s.nparts).all fun p => (upto 64).all fun q => (descOf s p q).state == 0

/-- The pages of a stream's courses that it still has. -/
def Stream.pagesHeld (x : Stream) : List (Word × Nat) :=
  ((x.courses.flatMap (·.pages)).filter fun c => !x.lacks c.pa).map fun c => (c.va, c.pa)

/-- Nothing of the old partitions is on its way any more: the waiting accesses of every strand, the reservations of appends and the
copies of ended gangs are performed, the gangs give up what they hold, and every stream is unbound. The pages of its pool are no longer engine-held and stay as
they are; those that are RELEASING leave once their last holder has acknowledged (R357, 07 R114; log entry 46). -/
def settlePartitions (s : State) : State :=
  let s := (s.strands.map Prod.fst).foldl drainStrand s
  let s := s.apps.foldl (fun s p => fillAll p.1 p.2.pending.length s) s
  let s := reapGangs (s.gangs.foldl (fun s p => p.2.cores.foldl settleCore s) s)
  s.streams.foldl (fun s p => unbindStream (holdPages false p.2.pagesHeld s) p.1) s

/-- The partitions are created anew: their registers are reset, and no translation, replica, gang or launch of the old ones stays;
records that wait for a slot stay held. That a Fliven strand keeps its SPID, which may then name no partition, is the model's choice (log
entry 46). The queue tables are cleared, where the reset SAVEBASE puts them (R356 R357, 22 R308, 23
R319). -/
def createPartitions (n : Nat) (s : State) : State :=
  let s := settlePartitions s
  { physWrite s 0 (zeros 4096) with
    nparts := n
    parts := (upto 8).filterMap fun p => if (s.part p).held.isEmpty then none
      else some (p, ({ held := (s.part p).held } : Part))
    gangs := []
    launches := []
    cores := s.cores.map fun c => (c.1, { c.2 with tlb := [], barSig := [] })
    dies := s.dies.map fun d => (d.1, { d.2 with tlb := [], replicas := [] }) }

def execPartitionCountSet (n : Nat) (s : State) : Out :=
  .next (if s.stage = .off then s
    else if (n = 1 ∨ n = 2 ∨ n = 4 ∨ n = 8) ∧ s.stage ≠ .failed ∧ partitionsIdle s then createPartitions n s
    else logEntry s 3 n)

def execPowerLimitSet (w : Nat) (s : State) : Out :=
  .next (if s.stage = .off then s else if 1800 ≤ w then { s with powerLimit := w } else logEntry s 3 w)

/-- A signature that waits for its release is released (R361). -/
def releaseReport (s : State) : State :=
  match s.reportPending with
  | none => s
  | some r => { s with reports := s.reports ++ [r], reportPending := none }

/-- The counter is advanced and persisted before the signature is released (R361; log entry 3). -/
def attest (nonce : Nat) (s : State) : State :=
  let s := { s with attested := s.attested + 1, reportPending := some (s.attested, nonce) }
  if s.later then s else releaseReport s

def execAttestationRequest (nonce : Nat) (s : State) : Out :=
  .next (if s.stage ≠ .ready then s
    else
      let s := releaseReport s
      if Config.attestationLimit ≤ s.attested then logEntry s 6 nonce else attest nonce s)

/-! Time (R362). -/

/-- A correction: one step before READY when it is more than 1 ms, else a change of rate, which `advance` applies. -/
def correctTime (d : Int) (s : State) : State :=
  if s.stage ≠ .ready ∧ Config.oneMilli < d.natAbs then { s with now := ((s.now : Int) + d).toNat }
  else
    let s := { s with timeOffset := s.timeOffset + d }
    if Config.oneMilli < s.timeOffset.natAbs then logEntry s 4 s.timeOffset.natAbs else s

def execTimeCorrection (d : Int) (s : State) : Out := .next (correctTime d s)

/-- Untracked copies past their ten microseconds leave (15 R286, 16 R294). -/
def dropOld (s : State) : State :=
  let keep := fun (p : Nat × CacheLine) => p.2.own || decide (s.now ≤ p.2.time + Config.tenMicros)
  { s with
    cores := s.cores.map fun c => (c.1, { c.2 with l1 := c.2.l1.filter keep, icache := c.2.icache.filter keep })
    dies := s.dies.map fun d => (d.1, { d.2 with gate := d.2.gate.filter keep }) }

/-- Some nanoseconds of the local clock pass: NOW moves by as many, corrected by at most 100 ppm, and never back (R362). -/
def passTime (ns : Nat) (s : State) : State :=
  let most : Int := (ns / 10000 : Nat)
  let c := if s.timeOffset < 0 then max s.timeOffset (-most) else min s.timeOffset most
  dropOld { s with now := ((s.now : Int) + ns + c).toNat, timeOffset := s.timeOffset - c }

/-- A core's clock counts (11 R202). -/
def countClock (core n : Nat) (s : State) : State := s.modCore core fun x => { x with clk := (x.clk + n) % 2 ^ 64 }

/-! Soft errors and lost lines (R363 R364 R365). -/

/-- The events of a unit within the window, with one more now; the 16th makes the fault lasting. -/
def countError (now : Nat) (old : List Nat) : List Nat × Bool :=
  let l := (old.filter fun t => decide (now < t + Config.errorWindow)) ++ [now]
  (l, decide (Config.errorLimit ≤ l.length))

/-- A lane group counts an error; once its fault is lasting it leaves the table when no strand holds it (R363 R365). -/
def LaneGroup.count (now : Nat) (g : LaneGroup) : LaneGroup :=
  let (l, bad) := countError now g.errors
  { g with errors := l, retired := g.retired || (bad && g.owner.isNone), retireDue := (g.retireDue || bad) && g.owner.isSome }

/-- A corrected soft error (R363). A way that is retired keeps its 16 events; a row that is remapped counts from none. -/
def correctedError (u : SoftUnit) (s : State) : State :=
  match u with
  | .laneGroup core g =>
    if Config.numCores ≤ core then s else
    s.modCore core fun x => { x with groups := x.groups.mapIdx fun i y => if i = g then y.count s.now else y }
  | .l2Way slice way =>
    let k := slice * 2 ^ 16 + way
    let old := Map.getD s.l2Errors k []
    if Config.errorLimit ≤ old.length then s else { s with l2Errors := Map.set s.l2Errors k (countError s.now old).1 }
  | .memoryRow stack row =>
    let k := stack * 2 ^ 40 + row
    let (l, bad) := countError s.now (Map.getD s.rowErrors k [])
    { s with rowErrors := Map.set s.rowErrors k (if bad then [] else l) }

def execCorrectedSoftError (u : SoftUnit) (s : State) : Out := .next (correctedError u s)

/-- n bytes at a place lie in a line, or in a scratchpad page whose backing area holds it (05 R74). -/
def inLine (s : State) (line : Nat) (l : Loc) (n : Nat) : Bool :=
  match l with
  | .gen pa _ _ => decide (pa < line * 128 + 128) && decide (line * 128 < pa + n)
  | .spad gang core off =>
    match s.gang? gang with
    | none => false
    | some g => g.evicted.contains (cidOfCore core, off / 0x4000)
        && line * 128 / 0x4000 == backingAddr g (cidOfCore core) (off / 0x4000) / 0x4000

/-- The waiting accesses that name bytes of a line, or of a scratchpad page that lies there, are performed: their checks passed before the
line was lost (R364; log entry 63). -/
def settleLine (line : Nat) (s : State) : State :=
  let s := (s.strands.filterMap fun p => if p.2.ord.path.any fun a => inLine s line a.loc a.size then some p.1 else none).foldl
    drainStrand s
  let s := (s.cores.filterMap fun c => if c.2.stores.any fun v => inLine s line v.loc v.data.length then some c.1 else none).foldl
    (fun s c => drainStores c (fun _ => true) s) s
  (s.cores.filterMap fun c => if c.2.redMsgs.any fun r => inLine s line (.spad r.gang c.1 r.off) r.size then some c.1 else none).foldl
    (fun s c => drainMessages c s) s

/-- An uncorrectable read of device memory at its home (R364). -/
def loseLine (pa : Nat) (s : State) : State :=
  let line := lineOf pa
  let f := frameOf pa
  let s := settleLine line s
  let s := { s with
    lostLines := s.lostLines ++ [line]
    retiredFrames := if s.retiredFrames.contains f then s.retiredFrames else s.retiredFrames ++ [f] }
  postUnit s (s.partOfStack (stackOf pa)) (stackOf pa / 2 * 256) 2 { cause := .dataLost, addr := BitVec.ofNat 64 (line * 128) }

/-- A line that is marked lost is not read again. -/
def uncorrectable (pa : Nat) (s : State) : State :=
  if Config.deviceBytes ≤ pa ∨ s.lostLines.contains (lineOf pa) then s else loseLine pa s

def execUncorrectableRead (pa : Nat) (s : State) : Out := .next (uncorrectable pa s)

/-! Lane groups asleep (23 R329). -/

/-- A group that no strand has held for ten microseconds goes to sleep. -/
def LaneGroup.doze (now : Nat) (g : LaneGroup) : LaneGroup :=
  if g.owner.isNone && !g.retired && decide (g.freeSince + Config.tenMicros ≤ now) then { g with asleep := true } else g

def execLaneGroupSleep (core g : Nat) (s : State) : Out :=
  .next (if Config.numCores ≤ core then s
    else s.modCore core fun x => { x with groups := x.groups.mapIdx fun i y => if i = g then y.doze s.now else y })

/-- The next four sleeping groups that strands hold wake, in ascending physical order. -/
def wakeBatch : Nat → List LaneGroup → List LaneGroup
  | _, [] => []
  | 0, gs => gs
  | n + 1, g :: gs =>
    if g.toWake then { g with asleep := false } :: wakeBatch n gs else g :: wakeBatch (n + 1) gs

/-- A batch is awake 20 ns after the wake began or the batch before it was (23 R329). -/
def Core.wake (now : Nat) (x : Core) : Core :=
  match x.waking with
  | none => x
  | some t =>
    if now < t + Config.wakeNanos then x else
    let gs := wakeBatch 4 x.groups
    { x with groups := gs, waking := if gs.any (·.toWake) then some (t + Config.wakeNanos) else none }

def execLaneGroupWakeBatch (core : Nat) (s : State) : Out :=
  .next (if Config.numCores ≤ core then s else s.modCore core (·.wake s.now))

/-! Copies dropped and evicted (05 R68, 15 R286, 16 R294). The bytes of an OWN line already stand in memory (log entry 4). -/

/-- A line leaves an L1, if the copy may leave. -/
def dropLine (may : CacheLine → Bool) (core line : Nat) (s : State) : State :=
  match Map.get? (s.core core).l1 line with
  | none => s
  | some l => if may l then s.modCore core fun x => { x with l1 := Map.erase x.l1 line } else s

def execUntrackedCopyDrop (core line : Nat) (s : State) : Out := .next (dropLine (fun l => !l.own) core line s)
def execLineEviction (core line : Nat) (s : State) : Out := .next (dropLine (fun _ => true) core line s)
def execGatewayCopyDrop (die line : Nat) (s : State) : Out :=
  .next (match Map.get? s.dies die with
    | none => s
    | some x => { s with dies := Map.set s.dies die { x with gate := Map.erase x.gate line } })

/-! Accesses from outside (16 R294, 24 R342). -/

/-- The lines of n bytes at an address. -/
def linesOf (a n : Nat) : List Nat := if n = 0 then [] else (upto ((a + n - 1) / 128 - a / 128 + 1)).map fun i => a / 128 + i

/-- The bytes an access reaches. -/
def remoteSize : RemoteOp → Nat
  | .read n => n
  | .write d | .append d | .appendAt d => d.length
  | .amo _ _ _ => 8
  | .reduce _ t _ | .copyReduce _ t _ => t.width / 8
  | .nibble _ _ => 1
  | .sealPage | .oclear => 1
  | .propose _ _ | .oread _ => 16

/-- Where an access from outside finds its bytes: device memory, or the memory of the accessor itself (log entry 21). -/
def remoteKey (r : RemoteReq) : Nat :=
  if !r.hostMemory then r.addr
  else match r.peer with
    | none => Config.hostBase + r.addr
    | some q => Config.peerBase + q * Config.deviceBytes + r.addr % Config.deviceBytes

/-- The access reaches bytes that exist. -/
def remoteExists (r : RemoteReq) : Bool :=
  let top := if !r.hostMemory then Config.deviceBytes else match r.peer with
    | none => 2 ^ 52
    | some _ => Config.deviceBytes
  decide (r.addr + remoteSize r.op ≤ top) && (match r.peer with
    | none => true
    | some q => decide (q < 256))

/-- The mark of a failed link: the partition whose pages refuse the peer (24 R338). -/
def linkMark (part peer : Nat) : Nat := part * 256 + peer

/-- An AMO of n bytes at the home; the signature along the release sequence stays (15 R280 R285). -/
def remoteUpdate (pa n : Nat) (f : Nat → Nat) (s : State) : State :=
  let sig := sigIn s.lineSig pa n
  let s := physWrite s pa (bytesOfNat n (f (natOfBytes (s.mem.read pa n))))
  { s with lineSig := putSigs s.lineSig pa n sig }

/-- The home records that a peer keeps a copy (24 R338 R342). -/
def recordPeer (peer : Option Nat) (f : Nat) (s : State) : State :=
  match peer with
  | none => s
  | some q => { s with peerHolds := Map.set s.peerHolds f (unionList (Map.getD s.peerHolds f []) [q]) }

/-- What a plain access does at its home. -/
def remotePlain (pa : Nat) (op : RemoteOp) (s : State) : State :=
  let take := match op with
    | .read _ => false
    | _ => true
  let s := (linesOf pa (remoteSize op)).foldl (fun s l => recallLine s l none take) s
  match op with
  | .write d => physWrite s pa d
  | .amo f x y => remoteUpdate pa 8 (fun old => (amoApply f x y (BitVec.ofNat 64 old)).toNat) s
  | .reduce o t x => physWrite s pa (bytesOfNat (t.width / 8) (redApply o t (natOfBytes (s.mem.read pa (t.width / 8))) x))
  | .copyReduce r t x => physWrite s pa (bytesOfNat (t.width / 8) (copyRed r t (natOfBytes (s.mem.read pa (t.width / 8))) x))
  | .nibble high x => physWrite s pa (bytesOfNat 1 (setElem (natOfBytes (s.mem.read pa 1)) 4 high.toNat x))
  | .read _ | .append _ | .appendAt _ | .sealPage | .propose _ _ | .oread _ | .oclear => s

/-- Appended data fills whole words of 8 bytes, with zeros after the last byte (07 R106). -/
def padded (d : List Byte) : List Byte := d ++ zeros (roundUp d.length 8 - d.length)

/-- An append from outside at TAIL = t: one into a lost line has no effect here (07 R106, 27 R364). -/
def remoteReserve (f t : Nat) (d : List Byte) (s : State) : State :=
  if s.lost (f * 0x10000 + t) (padded d).length then s else appendNow s f t (padded d)

/-- What an access does at an APPEND page (07 R106 to R114): a read of filled bytes, an append, a SEAL; any other is refused
and raises its fault at the accessor. `peer` may keep what it reads. -/
def remoteAppend (peer : Option Nat) (pa : Nat) (op : RemoteOp) (p : AppPage) (s : State) : State :=
  let f := frameOf pa
  let o := pa % 0x10000
  if p.state = .releasing then s
  else match op with
    | .read n => if o + n ≤ p.mark ∧ p.state = .sealed_ then recordPeer peer f s else s
    | .append d =>
      if p.engineHeld then s else match p.reserve (padded d).length with
        | .offset t => remoteReserve f t d s
        | .full | .sealed_ => s
    | .appendAt d =>
      if p.engineHeld ∨ p.state ≠ .open_ ∨ p.tail ≠ o ∨ 0x10000 < o + (padded d).length then s else remoteReserve f o d s
    | .sealPage => if p.engineHeld then s else sealAt s f []
    | .write _ | .amo _ _ _ | .reduce _ _ _ | .copyReduce _ _ _ | .nibble _ _ | .propose _ _ | .oread _ | .oclear => s

/-- What an access does at a ONCE page (07 R116 R118 R120); one of another generation is stale (24 R341), and a decided cell may be
kept by the peer (R342). An OCLEAR that meets a shoot-down of the page has not reached the home yet (24 R339); its own is named by the
frame, above every virtual page. -/
def remoteOnce (peer : Option Nat) (pa : Nat) (op : RemoteOp) (o : OncePage) (s : State) : State :=
  let f := frameOf pa
  let i := pa % 0x10000 / 16
  if o.clearing then s
  else match op with
    | .propose g x =>
      if g ≠ o.gen then s else
      match Map.get? o.cells i with
      | some _ => recordPeer peer f s
      | none => recordPeer peer f { s with onces := Map.set s.onces f { o with cells := Map.set o.cells i x } }
    | .oread g => if g = o.gen ∧ (Map.get? o.cells i).isSome then recordPeer peer f s else s
    | .oclear =>
      if s.shoots.any fun x => x.frames.contains f then s
      else beginClear s (Config.dispatchBase + stackOf pa / 2) (s.partOfStack (stackOf pa)) (2 ^ 32 + f) f
    | .read _ | .write _ | .amo _ _ _ | .reduce _ _ _ | .copyReduce _ _ _ | .nibble _ _ | .append _ | .appendAt _ | .sealPage => s

/-- An access at the home of its page. -/
def remoteAt (peer : Option Nat) (pa : Nat) (op : RemoteOp) (s : State) : State :=
  match Map.get? s.apps (frameOf pa), Map.get? s.onces (frameOf pa) with
  | some p, _ => remoteAppend peer pa op p s
  | none, some o => remoteOnce peer pa op o s
  | none, none => remotePlain pa op s

/-- An access over a link marked failed is refused (24 R338). -/
def linkRefused (r : RemoteReq) (s : State) : Bool :=
  match r.peer with
  | none => false
  | some q => s.failedPeers.contains (linkMark (s.partOfStack (stackOf r.addr)) q)

/-- The bytes at its own address that an access reads or writes. -/
def remoteBytes : RemoteOp → Nat
  | .append _ | .appendAt _ | .sealPage | .oclear => 0
  | op => remoteSize op

/-- The device answers the host from the stage DIES on, and its peers once it is READY (27 R359). -/
def State.reached (s : State) (peer : Option Nat) : Bool := s.stage == .ready || (s.linkUp && peer.isNone)

/-- REMOTE_ACCESS: performed at its home as UC; with `hostMemory` the accessor changes its own memory. One to a lost line, or
over a link marked failed, or before the link is up, has no effect here (16 R294, 27 R359 R364). -/
def remoteAccess (r : RemoteReq) (s : State) : State :=
  if !remoteExists r then s
  else if r.hostMemory then remoteAt none (remoteKey r) r.op s
  else if !s.reached r.peer || linkRefused r s || s.lost r.addr (remoteBytes r.op) then s
  else remoteAt r.peer r.addr r.op s

def execRemoteAccess (r : RemoteReq) (s : State) : Out := .next (remoteAccess r s)

/-! Links (24 R338 R342). -/

def execLinkFailedMarkClear (peer : Nat) (s : State) : Out :=
  .next { s with failedPeers := s.failedPeers.filter fun m => m % 256 != peer }

/-- PEER_INVALIDATION: the copies of a peer's page leave every L1 and instruction cache, every gateway slice, every replica and every cache of decided
cells (R338 R342). -/
def execPeerInvalidation (peer page : Nat) (s : State) : Out :=
  .next (
    let f := (Config.peerBase + peer * Config.deviceBytes) / 0x10000 + page
    let keep := fun (p : Nat × CacheLine) => p.2.own || p.1 / 512 != f
    { s with
      cores := s.cores.map fun c => (c.1, { c.2 with l1 := c.2.l1.filter keep, icache := c.2.icache.filter keep })
      dies := s.dies.map fun d => (d.1, { d.2 with
        gate := d.2.gate.filter keep
        replicas := d.2.replicas.filter fun l => l / 512 != f
        cells := d.2.cells.filter fun c => c.1 / 4096 != f }) })

/-- POWER_LOSS: what is left is the persisted counter, what has left the device, and memory that is not its own (R361). -/
def execPowerLoss (s : State) : Out :=
  .next { State.reset with
    attested := s.attested, reports := s.reports, msix := s.msix, mgmtLog := s.mgmtLog
    mem := s.mem.filter fun c => decide (Config.hostBase ≤ c.1)
    drawn := s.drawn, agenda := s.agenda, later := s.later }

end Sys2Proof.Machine
end

