-- ==== Sys2Proof/Machine/Privileged.lean ====
section
/-! DEFINITION. The eight privileged instructions of 22_privileged: ERET (R312), MFS and MTS (R308 R313), SHOOT (R314),
TLBINV (R315), RESUME (R316, 25 R353), HALT (R317) and FRQPOP (R318). -/

namespace Sys2Proof.Machine

/-- The level a word needs at decode (R311, 10 R171). -/
def needLevel (lv : Level) (i : Instr) (s : State) (k : State → State) : State :=
  if lv.num < s.me.level.num then scalarTrap i { cause := .privilege } s else k s

/-- ERET (R312). -/
def execEret (s : State) : Out := .next (needLevel .f .eret s flivenReturn)

/-! System registers (R308 R313). -/

/-- The partition whose registers a strand names: that of SPID. -/
def State.mine (s : State) : Part := s.part s.me.part

/-- The value of a system register; none for a number outside the map. -/
def systemReg (s : State) (n : Nat) : Option Word :=
  let f := s.me.fl
  let p := s.mine
  let w := fun (x : Nat) => some (BitVec.ofNat 64 x)
  match n with
  | 0x100 => some f.epc | 0x101 => some f.ecause | 0x102 => some f.faultVal | 0x103 => w f.elevel | 0x104 => some f.tvec
  | 0x105 => w f.spid | 0x106 => w s.me.level.num
  | 0x110 => some p.gtbase | 0x111 => some p.frqbase | 0x112 => w p.frqsize | 0x113 => w p.frqhead | 0x114 => w p.frqtail
  | 0x115 => w p.pdlim | 0x116 => w p.stallint | 0x117 => some p.troot | 0x118 => some p.sralloc | 0x119 => some p.qopen
  | 0x11A => some p.savebase | 0x11B => some p.savesize
  | _ => none

/-- MFS (R313). -/
def mfsNow (d : SReg) (n : BitVec 12) (s : State) : State :=
  match systemReg s n.toNat with
  | none => scalarTrap (.mfs d n) { cause := .illegal } s
  | some x => (s.wr d x).retire

def execMfs (d : SReg) (n : BitVec 12) (s : State) : Out :=
  .next (needLevel .s (.mfs d n) s fun s => named [d] s (mfsNow d n))

/-- The registers that only level F writes (R308). -/
def firmwareOnly (n : Nat) : Bool :=
  decide (0x100 ≤ n ∧ n ≤ 0x105) || n == 0x117 || n == 0x118 || n == 0x11A || n == 0x11B

/-- FRQSIZE is a power of two from 16 to 65,536. -/
def frqSizeGood (n : Nat) : Bool := (upto 13).any fun k => n == 2 ^ (k + 4)

/-- The value rules of R308, with TROOT's of 24 R331. -/
def mtsAllowed (s : State) (n : Nat) (x : Word) : Bool :=
  let v := x.toNat
  let p := s.mine
  match n with
  | 0x100 | 0x102 | 0x119 | 0x11B => true
  | 0x101 => decide (v < 0x10000)
  | 0x103 => decide (v < 4)
  | 0x104 => bitsOf v 1 0 == 0 && bitsOf v 63 48 == 0
  | 0x105 => decide (v < s.nparts)
  | 0x110 => bitsOf v 13 0 == 0 && bitsOf v 63 48 == 0
  | 0x111 => bitsOf v 5 0 == 0 && bitsOf v 63 48 == 0 && p.frqhead == p.frqtail
  | 0x112 => frqSizeGood v && p.frqhead == p.frqtail
  | 0x115 => decide (v ≤ 1000000)
  | 0x116 => decide (10000 ≤ v ∧ v ≤ 1000000000)
  | 0x117 => bitsOf v 10 0 == 0 && bitsOf v 63 52 == 0
  | 0x118 => bitsOf v 15 14 == 0 && bitsOf v 63 31 == 0 && decide (bitsOf v 30 16 ≤ 16384)
  | 0x11A => bitsOf v 15 0 == 0 && bitsOf v 63 39 == 0 && inShare s.nparts s.me.part (stackOf v)
    && !s.outOfShare (v / 0x10000)
  | _ => false

/-- A sync register number lies in an allotment (05 R82, 22 R308). -/
def allotted (al n : Nat) : Bool := decide ((n + 16384 - bitsOf al 13 0) % 16384 < bitsOf al 30 16)

/-- The registers that a new allotment adds are zero, at the home and in every mirror (05 R82). That those which the partition held before
keep their values is the model's choice (log entry 76). -/
def clearSyncs (s : State) (old new : Nat) : State :=
  let keep := fun (n : Nat) => !allotted new n || allotted old n
  { s with
    syncs := s.syncs.filter fun p => keep p.1
    dies := s.dies.map fun p => (p.1, { p.2 with mirror := p.2.mirror.filter fun q => keep q.1
                                                 syncPend := p.2.syncPend.filter fun q => keep q.1 }) }

/-- A system register written (R308 R313). -/
def putSystem (n : Nat) (x : Word) (s : State) : State :=
  let fl := fun (f : FlivenRegs → FlivenRegs) => s.modMe fun t => { t with fl := f t.fl }
  let pt := fun (f : Part → Part) => s.modPart s.me.part f
  match n with
  | 0x100 => fl fun f => { f with epc := x, trapped := false }
  | 0x101 => fl fun f => { f with ecause := x }
  | 0x102 => fl fun f => { f with faultVal := x }
  | 0x103 => fl fun f => { f with elevel := x.toNat }
  | 0x104 => fl fun f => { f with tvec := x }
  | 0x105 => fl fun f => { f with spid := x.toNat }
  | 0x110 => pt fun p => { p with gtbase := x }
  | 0x111 => pt fun p => { p with frqbase := x }
  | 0x112 => pt fun p => { p with frqsize := x.toNat }
  | 0x115 => pt fun p => { p with pdlim := x.toNat }
  | 0x116 => pt fun p => { p with stallint := x.toNat }
  | 0x117 => pt fun p => { p with troot := x }
  | 0x118 => (clearSyncs s s.mine.sralloc.toNat x.toNat).modPart s.me.part fun p => { p with sralloc := x }
  | 0x119 => pt fun p => { p with qopen := x }
  | 0x11A => pt fun p => { p with savebase := x }
  | 0x11B => pt fun p => { p with savesize := x }
  | _ => s

/-- MTS (R308 R313). -/
def mtsNow (d : SReg) (n : BitVec 12) (s : State) : State :=
  if !mtsNumbers.contains n.toNat then scalarTrap (.mts d n) { cause := .illegal } s
  else if firmwareOnly n.toNat && s.me.level.num != 0 then scalarTrap (.mts d n) { cause := .privilege } s
  else if !mtsAllowed s n.toNat (s.rd d) then scalarTrap (.mts d n) { cause := .illegal } s
  else (putSystem n.toNat (s.rd d) s).retire

def execMts (d : SReg) (n : BitVec 12) (s : State) : Out :=
  .next (needLevel .s (.mts d n) s fun s => named [d] s (mtsNow d n))

/-! SHOOT and TLBINV (R314 R315). -/

/-- The status of a SHOOT, and its end: a release at SYSTEM scope has every earlier store performed. -/
def shootDone (d : SReg) (st : Word) (s : State) : State := (s.wr d st).retire

/-- The strand waits for the last acknowledgement of its own shoot-down. -/
def shootWait (i : Instr) (d : SReg) (s : State) : State :=
  if shooting s then sleepNow i s else shootDone d 0 (drainPath s)

/-- The leaf of the page of an address that is a generic one; the walk raises nothing. -/
def leafOf (s : State) (va : Nat) : Option (Nat × Nat × Nat) :=
  if bitsOf va 63 48 ≠ 0 then none else leafSlot s s.me.part va

/-- The walk of a SHOOT reads a lost line (27 R364). -/
def shootLost (s : State) (va : Nat) : Bool := bitsOf va 63 48 == 0 && tableLost s s.me.part va

/-- What a SHOOT finds wrong or absent before it begins (R314). -/
inductive ShootPlan where
  | trap (c : Cause)
  | absent
  | go
  deriving DecidableEq, Repr

def shootPlan (s : State) (va op : Nat) : ShootPlan :=
  if shootLost s va then .trap .dataLost else
  match leafOf s va with
  | some x =>
    if op = 1 then
      if !leafGood s s.me.part x then .absent
      else if s.me.level == .l && !leafLib x.2.1 then .trap .privilege
      else .go
    else .go
  | none => if op = 1 || (heldLeaves s s.me.part va).isEmpty then .absent else .go

/-- SHOOT on a page that no shoot-down is in progress on; the strand's earlier stores are performed before the home reads the leaf
(24 R338). -/
def shootBegin (i : Instr) (d : SReg) (va op : Nat) (s : State) : State :=
  let s := drainPath s
  match shootPlan s va op with
  | .trap c => scalarTrap i { cause := c, addr := if c = .dataLost then BitVec.ofNat 64 va else 0 } s
  | .absent => shootDone d 1 s
  | .go => shootWait i d ((shootPage s va op (leafOf s va)).modMe fun t => { t with wait := { t.wait with mark := some 0 } })

/-- SHOOT (R314); one that meets a shoot-down of its page waits for it first (24 R339). -/
def shootNow (d a b : SReg) (s : State) : State :=
  let i : Instr := .shoot d a b
  let va := (s.rd a).toNat
  let op := (s.rd b).toNat
  if 1 < op then scalarTrap i { cause := .illegal } s
  else if s.me.level = .l ∧ op ≠ 1 then scalarTrap i { cause := .privilege } s
  else if s.me.wait.mark.isSome then shootWait i d s
  else
    let big := match leafOf s va with
      | some x => x.2.2 == 1
      | none => false
    let frames := match leafOf s va with
      | some x => if big then leafFrames x.2.1 true else [leafFrameAt x.2.1 false va]
      | none => []
    if s.shoots.any fun x => x.meets s.me.part (va / 0x10000) big || (x.clear && x.frames.any frames.contains) then sleepNow i s
    else shootBegin i d va op s

def execShoot (d a b : SReg) (s : State) : Out :=
  .next (needLevel .l (.shoot d a b) s fun s => named [d, a, b] s (shootNow d a b))

/-- TLBINV (R315). -/
def tlbinvNow (a b : SReg) (s : State) : State :=
  if 3 < (s.rd b).toNat then scalarTrap (.tlbinv a b) { cause := .illegal } s
  else (invalidate s (s.rd a).toNat (s.rd b).toNat).retire

def execTlbinv (a b : SReg) (s : State) : Out :=
  .next (needLevel .s (.tlbinv a b) s fun s => named [a, b] s (tlbinvNow a b))

/-! RESUME (R316, 25 R353). -/

/-- The place a handle names, its partition, its stop sequence, its reserved bits (R310). -/
def handleKey (h : Nat) : Nat := h % 1024
def handlePart (h : Nat) : Nat := bitsOf h 12 10
def handleSeq (h : Nat) : Nat := bitsOf h 47 16
def handleReserved (h : Nat) : Bool := bitsOf h 15 13 != 0 || bitsOf h 63 48 != 0

/-- A stopped strand that a handle can name: resident at the place, or saved from it with its gang (25 R354). -/
inductive Stopped where
  | here (t : Strand)
  | saved (gang : Nat) (t : Strand)
  deriving DecidableEq, Repr

def Stopped.strand : Stopped → Strand
  | .here t | .saved _ t => t

/-- The saved strands of a gang that RESUME may name: of a halted gang every stopped one, of a rotated one those with a
fault of their own (22 R316, 25 R354). -/
def resumable (x : Gang) (t : Strand) : Bool :=
  t.status == .stopped && (x.state == .halted || (x.state == .preempted && ownStop t))

/-- Every stopped strand that stopped at a place, or stands at it. That a strand which stopped for a fault of its own and was seated again with
its gang is found at its new place alone is the model's choice (log entry 32). -/
def stoppedAtKey (s : State) (p key : Nat) : List Stopped :=
  (match s.strand? key with
    | some t => if t.status == .stopped && !t.fliven && t.id.pid == p then [.here t] else []
    | none => [])
  ++ s.gangs.flatMap fun g => if g.2.part != p then [] else
    (g.2.saved.filter fun q => q.1 == key && resumable g.2 q.2).map fun q => .saved g.1 q.2

/-- The context as action 0 or 1 leaves it (25 R353). -/
def resumedStrand (redirect : Bool) (x : Gang) (s : State) (t : Strand) : Strand :=
  let u := restored s x t
  let u := if redirect then u.redirect (t.stopped.getD { cause := .preempt }) t.stopKind else u
  { u with stopped := none, wait := {}, owed := [] }

/-- A resident strand goes on, once no strand of its gang is stopped (25 R354); its core drops its untracked copies and the lines of its
instruction cache, so that it sees every store performed before the RESUME (26 R355). -/
def resumeHere (redirect : Bool) (key : Nat) (t : Strand) (s : State) : State :=
  match s.gang? t.id.gang with
  | none => s
  | some x =>
    let s := s.putStrand key { resumedStrand redirect x s t with status := .placed }
    let s := s.asStrand key fun s => dropCode s.myCore (acquire (settleMarkers s s.me.queue) s.agent .system [])
    wakeGang s t.id.gang

/-- A saved strand is resumed in its gang's context; with its last stopped strand resumed, a halted gang waits for its
place (R316). -/
def resumeSaved (redirect : Bool) (g key : Nat) (t : Strand) (s : State) : State :=
  match s.gang? g with
  | none => s
  | some x =>
    let u := { resumedStrand redirect x s t with status := .placed }
    let s := if x.ctx = 0 then s else physWrite s (x.ctx + strandOffset x u.id.sidx) (strandBlock u x.ctx)
    s.modGang g fun x =>
      let saved := x.saved.map fun q => if q.1 = key ∧ q.2.id.sidx = t.id.sidx then (key, u) else q
      { x with
        saved := saved
        state := if x.state = .halted ∧ !(saved.any fun q => q.2.status == .stopped) then .preempted else x.state }

/-- The gateway copies of every die leave, so that the resumed strand sees every store performed before the RESUME (26 R355). -/
def dropGateways (s : State) : State := { s with dies := s.dies.map fun p => (p.1, { p.2 with gate := [] }) }

/-- The effect of an action on the strand a handle names. -/
def resumeAct (a : Nat) (key : Nat) (c : Stopped) (s : State) : State :=
  match a with
  | 0 | 1 =>
    let s := dropGateways s
    match c with
    | .here t => resumeHere (a == 1) key t s
    | .saved g t => resumeSaved (a == 1) g key t s
  | 2 => endGang s c.strand.id.gang
  | _ => endLaunch s c.strand.id.launch

/-- The handler that REDIRECT would go to: TRAPH of the saved context (25 R353). -/
def handlerOf (s : State) (c : Stopped) : Word :=
  match s.gang? c.strand.id.gang with
  | none => c.strand.traph
  | some x => (restored s x c.strand).traph

/-- A handle with slot and stop sequence 0, as records of KIND 2 to 4 have, which name no stopped strand (25 R343). -/
def unitHandle (h : Nat) : Bool := handleSeq h == 0 && handleKey h % 4 == 0

/-- RESUME (R316), after the earlier stores of the strand (26 R355). -/
def resumeNow (d a b : SReg) (s : State) : State :=
  let h := (s.rd a).toNat
  let act := (s.rd b).toNat
  if 3 < act ∨ handleReserved h ∨ handlePart h ≠ s.me.part then scalarTrap (.resume d a b) { cause := .illegal } s
  else
    let s := drainPath s
    let cs := stoppedAtKey s s.me.part (handleKey h)
    match cs.find? fun c => c.strand.stopSeq == handleSeq h with
    | none => (s.wr d (if cs.isEmpty ∨ unitHandle h then 1 else 2)).retire
    | some c =>
      if act = 1 ∧ handlerOf s c = 0 then (s.wr d 3).retire
      else ((resumeAct act (handleKey h) c s).wr d 0).retire

def execResume (d a b : SReg) (s : State) : Out :=
  .next (needLevel .s (.resume d a b) s fun s => named [d, a, b] s (resumeNow d a b))

/-! HALT (R317). -/

/-- The gang of the resident strand that a handle names, the stop sequence ignored (R317). That a handle with reserved bits set or of
another partition, and a strand of a gang that is halted already, count as no resident strand is the model's choice (log entry 55). -/
def haltTarget (s : State) (h : Nat) : Option Nat :=
  if handleReserved h || handlePart h != s.me.part then none else
  match s.strand? (handleKey h) with
  | none => none
  | some t =>
    if t.fliven || t.id.pid != s.me.part || !(t.status == .placed || t.status == .ready || t.status == .stopped) then none
    else some t.id.gang

/-- HALT goes on once its gang has stopped; a gang that ended meanwhile is resident no more. -/
def haltWait (i : Instr) (d : SReg) (g : Nat) (s : State) : State :=
  if s.me.wait.halted then (s.wr d 0).retire else
  match s.gang? g with
  | none => (s.wr d 2).retire
  | some x =>
    if x.isResident && x.stopReq.isSome then sleepNow i (s.modMe fun t => { t with wait := { t.wait with mark := some g } })
    else (s.wr d (if x.state = .halted then 0 else 2)).retire

/-- The request of a HALT: PD counts from the earliest request (22 R307). -/
def haltRequest (g : Nat) (s : State) : State :=
  heedStop (s.modGang g fun x => { x with stopReq := some ((x.stopReq.map Prod.fst).getD s.now, true) }) g

/-- HALT (R317). -/
def haltNow (d a : SReg) (s : State) : State :=
  let i : Instr := .halt d a
  match s.me.wait.mark with
  | some g => haltWait i d g s
  | none =>
    match haltTarget s (s.rd a).toNat with
    | none => (s.wr d 2).retire
    | some g =>
      if (residentOf s g).all fun p => p.2.status == .stopped then (s.wr d 1).retire
      else haltWait i d g (haltRequest g s)

def execHalt (d a : SReg) (s : State) : Out :=
  .next (needLevel .s (.halt d a) s fun s => named [d, a] s (haltNow d a))

/-! FRQPOP (R318). -/

/-- The oldest record of a queue, read through the partition's table with the rights of level S (22 R310). -/
def frqRead (s : State) (p : Nat) : State × Except Trap (List Byte) :=
  let x := s.part p
  let ag := hwAgent p (dieOfKey s.key)
  let a := x.frqbase + BitVec.ofNat 64 (64 * (x.frqhead % x.frqsize))
  let s := touch s ag a
  match check s ag .hwRead a 64 64 with
  | .error t => (s, .error t)
  | .ok pl =>
    let (s, b) := readPieces ag .uc pl.loc 8 s
    (s, .ok b)

/-- FRQPOP (R318). -/
def frqpopNow (d a : SReg) (s : State) : State :=
  let i : Instr := .frqpop d a
  let adr := s.rd a
  if adr.toNat % 64 ≠ 0 then scalarTrap i { cause := .misalign, addr := adr } s
  else
    let s := touch s s.agent adr
    match check s s.agent .store adr 64 64 with
    | .error t => scalarTrap i t s
    | .ok pl =>
      let p := s.me.part
      let head := (s.part p).frqhead
      if head = (s.part p).frqtail then ((s.wr d 0).wr (pairReg d) (BitVec.ofNat 64 head)).retire
      else match frqRead s p with
        | (s, .error t) => scalarTrap i t s
        | (s, .ok b) =>
          let s := writePieces s.agent .uc pl.loc b 8 (drainOverlap s pl.loc 64)
          let s := s.modPart p fun x => { x with frqhead := (head + 1) % 2 ^ 32 }
          let s := acquire (frqDrain p (s.part p).held.length s) s.agent .device []
          ((s.wr d 1).wr (pairReg d) (BitVec.ofNat 64 head)).retire

def execFrqpop (d a : SReg) (s : State) : Out :=
  .next (needLevel .s (.frqpop d a) s fun s => named [d, pairReg d, a] s (frqpopNow d a))

end Sys2Proof.Machine
end

