-- ==== Sys2Proof/Machine/ScalarMem.lean ====
section
/-! DEFINITION. The scalar memory instructions of 13_ref_memory: plain loads and stores (R234), the AMO group (R241), ordered
loads and stores (R242), FENCE (R243), VDRAIN (R244), PROPOSE and OREAD (R245). -/

namespace Sys2Proof.Machine

/-! Loads and stores (R234). -/

/-- s[A] + sext(IMM10) × n. -/
def scaledAddr (s : State) (a : SReg) (i : BitVec 10) (n : Nat) : Word := s.rd a + i.signExtend 64 * BitVec.ofNat 64 n

/-- A load once its registers are to be had. -/
def loadNow (i : Instr) (d : SReg) (adr : Word) (r : ReqType) (n : Nat) (signed : Bool) (s : State) : State :=
  let s := touch s s.agent adr
  match check s s.agent .load adr n n with
  | .error t => scalarTrap i t s
  | .ok p => (scalarLoad s r d p.loc n signed).retire

def loadOp (i : Instr) (d a : SReg) (r : ReqType) (imm : BitVec 10) (n : Nat) (signed : Bool) (s : State) : State :=
  named [d, a] s fun s => loadNow i d (scaledAddr s a imm n) r n signed s

/-- A store of the low n bytes of a value, plain or a release. -/
def storeNow (i : Instr) (x : Word) (adr : Word) (r : ReqType) (n : Nat) (rel : Option Scope) (s : State) : State :=
  let s := touch s s.agent adr
  match check s s.agent .store adr n n with
  | .error t => scalarTrap i t s
  | .ok p => (scalarWrite s r rel p.loc (bytesOfNat n x.toNat)).retire

def storeOp (i : Instr) (d a : SReg) (r : ReqType) (imm : BitVec 10) (n : Nat) (s : State) : State :=
  named [d, a] s fun s => storeNow i (s.rd d) (scaledAddr s a imm n) r n none s

def execLdb (d a : SReg) (r : ReqType) (i : BitVec 10) (s : State) : Out := .next (loadOp (.ldb d a r i) d a r i 1 true s)
def execLdh (d a : SReg) (r : ReqType) (i : BitVec 10) (s : State) : Out := .next (loadOp (.ldh d a r i) d a r i 2 true s)
def execLdw (d a : SReg) (r : ReqType) (i : BitVec 10) (s : State) : Out := .next (loadOp (.ldw d a r i) d a r i 4 true s)
def execLdd (d a : SReg) (r : ReqType) (i : BitVec 10) (s : State) : Out := .next (loadOp (.ldd d a r i) d a r i 8 true s)
def execLdbn (d a : SReg) (r : ReqType) (i : BitVec 10) (s : State) : Out :=
  .next (loadOp (.ldbn d a r i) d a r i 1 false s)
def execLdhn (d a : SReg) (r : ReqType) (i : BitVec 10) (s : State) : Out :=
  .next (loadOp (.ldhn d a r i) d a r i 2 false s)
def execLdwn (d a : SReg) (r : ReqType) (i : BitVec 10) (s : State) : Out :=
  .next (loadOp (.ldwn d a r i) d a r i 4 false s)
def execStb (d a : SReg) (r : ReqType) (i : BitVec 10) (s : State) : Out := .next (storeOp (.stb d a r i) d a r i 1 s)
def execSth (d a : SReg) (r : ReqType) (i : BitVec 10) (s : State) : Out := .next (storeOp (.sth d a r i) d a r i 2 s)
def execStw (d a : SReg) (r : ReqType) (i : BitVec 10) (s : State) : Out := .next (storeOp (.stw d a r i) d a r i 4 s)
def execStd (d a : SReg) (r : ReqType) (i : BitVec 10) (s : State) : Out := .next (storeOp (.std d a r i) d a r i 8 s)

/-! Orders (15_order_local R279 R287). -/

def acquires : Order → Bool
  | .acq | .ar => true
  | .rlx | .rel => false

def releases : Order → Bool
  | .rel | .ar => true
  | .rlx | .acq => false

/-- The scope of a release half. -/
def relScope (o : Order) (sc : Scope) : Option Scope := if releases o then some sc else none

/-- The releases the last scalar read met, for a later acquire fence (R279). -/
def noteRead (s : State) (sig : Sig) : State := s.modMe fun t => { t with ord := { t.ord with readSig := sig } }

/-- The acquire half of a read that met some releases. -/
def acquireHalf (s : State) (o : Order) (sc : Scope) (sig : Sig) : State :=
  if acquires o then acquire s s.agent sc sig else s

/-! AMOs (R241). -/

/-- One AMO at its location's home; the release sequence goes on (R241, 15 R285). One that is no acquire may wait (15 R277 R279). -/
def amoNow (i : Instr) (d a : SReg) (o : Order) (sc : Scope) (f : RemoteAmo) (x y : Word) (s : State) : State :=
  let s := touch s s.agent (s.rd a)
  match check s s.agent .amo (s.rd a) 8 8 with
  | .error t => scalarTrap i t s
  | .ok p =>
    let rel := writeRelease s (relScope o sc)
    let s := endFence s
    if !acquires o && mayWait s p.loc then
      (waitBehind s { loc := p.loc, data := [], rt := .uc, load := some ⟨d, 8, false⟩, amo := some (f, x, y), rel := rel
                      own := releases o }).retire
    else
      let s := beforeWrite (if acquires o then drainReleases s else s) (releases o) p.loc 8
      let sig := sigOf s p.loc 8
      let own := match rel with
        | some w => releaseSig s s.agent w
        | none => []
      let (s, old) := rmwAt s s.agent .uc p.loc 8 own fun old => (amoApply f x y (BitVec.ofNat 64 old)).toNat
      ((noteRead (acquireHalf s o sc sig) sig).wr d (BitVec.ofNat 64 old)).retire

def amoOp (i : Instr) (d a b : SReg) (o : Order) (sc : Scope) (f : RemoteAmo) (s : State) : State :=
  named [d, a, b] s fun s => amoNow i d a o sc f (s.rd b) 0 s

def execAmoswap (d a b : SReg) (o : Order) (sc : Scope) (s : State) : Out :=
  .next (amoOp (.amoswap d a b o sc) d a b o sc .swap s)
def execAmoadd (d a b : SReg) (o : Order) (sc : Scope) (s : State) : Out :=
  .next (amoOp (.amoadd d a b o sc) d a b o sc .add s)
def execAmoand (d a b : SReg) (o : Order) (sc : Scope) (s : State) : Out :=
  .next (amoOp (.amoand d a b o sc) d a b o sc .and s)
def execAmoor (d a b : SReg) (o : Order) (sc : Scope) (s : State) : Out :=
  .next (amoOp (.amoor d a b o sc) d a b o sc .or s)
def execAmomax (d a b : SReg) (o : Order) (sc : Scope) (s : State) : Out :=
  .next (amoOp (.amomax d a b o sc) d a b o sc .max s)
def execAmomin (d a b : SReg) (o : Order) (sc : Scope) (s : State) : Out :=
  .next (amoOp (.amomin d a b o sc) d a b o sc .min s)
def execAmomaxn (d a b : SReg) (o : Order) (sc : Scope) (s : State) : Out :=
  .next (amoOp (.amomaxn d a b o sc) d a b o sc .maxn s)
/-- AMOCAS compares with s[B] and writes s[B+1] (R241). -/
def execAmocas (d a b : SReg) (o : Order) (sc : Scope) (s : State) : Out :=
  .next (named [d, a, b, pairReg b] s fun s =>
    amoNow (.amocas d a b o sc) d a o sc .cas (s.rd b) (s.rd (pairReg b)) s)

/-! Ordered loads and stores (R242). -/

/-- An ordered load of n bytes, zero-extended. -/
def orderedLoad (i : Instr) (d a : SReg) (o : Order) (sc : Scope) (n : Nat) (s : State) : State :=
  named [d, a] s fun s =>
    let s := touch s s.agent (s.rd a)
    match check s s.agent .load (s.rd a) n n with
    | .error t => scalarTrap i t s
    | .ok p =>
      if !acquires o then (scalarLoad s .uc d p.loc n false).retire
      else
        let (s, bs) := scalarRead (drainReleases s) .uc p.loc n
        ((acquireHalf s o sc s.me.ord.readSig).wr d (BitVec.ofNat 64 (natOfBytes bs))).retire

def orderedStore (i : Instr) (a b : SReg) (o : Order) (sc : Scope) (n : Nat) (s : State) : State :=
  named [a, b] s fun s => storeNow i (s.rd b) (s.rd a) .uc n (relScope o sc) s

def execLdo (d a : SReg) (o : Order) (sc : Scope) (s : State) : Out := .next (orderedLoad (.ldo d a o sc) d a o sc 8 s)
def execSto (a b : SReg) (o : Order) (sc : Scope) (s : State) : Out := .next (orderedStore (.sto a b o sc) a b o sc 8 s)
def execLdow (d a : SReg) (o : Order) (sc : Scope) (s : State) : Out := .next (orderedLoad (.ldow d a o sc) d a o sc 4 s)
def execStow (a b : SReg) (o : Order) (sc : Scope) (s : State) : Out := .next (orderedStore (.stow a b o sc) a b o sc 4 s)

/-! FENCE and VDRAIN (R243 R244). -/

/-- FENCE: `.ar` performs the earlier accesses before later reads; a release fence lies between the waiting accesses and every later
scalar write, and makes the next one a release; an acquire fence has the last scalar read performed and applies its signature (R243, 15
R279). -/
def fenceNow (o : Order) (sc : Scope) (s : State) : State :=
  let s := if o = .ar then drainPath s else if acquires o then drainLoads s else s
  let s := acquireHalf s o sc s.me.ord.readSig
  (if releases o then fenceBehind s sc else s).retire

def execFence (o : Order) (sc : Scope) (s : State) : Out := .next (fenceNow o sc s)

/-- The entries VDRAIN waits for (R244). -/
def drainsWith : Instr → Bool
  | .vld _ _ _ _ _ _ | .vst _ _ _ _ _ | .vldx _ _ _ _ _ | .vstx _ _ _ _ | .vldb _ _ _ _ _ | .vredm _ _ _ _ _
  | .vapp _ _ _ | .vpropose _ _ _ | .vwaitall _ _ _ | .vwaitany _ _ _ => true
  | _ => false

/-- A reduction message of the strand is on its way (05 R78). -/
def messagesDue (s : State) : Bool := s.cores.any fun c => c.2.redMsgs.any fun m => m.strand == s.me.sid

/-- VDRAIN (R244): performed at its home, an access is performed at every scope. -/
def execVdrain (sc : Scope) (s : State) : Out :=
  .next (afterLanes (fun s => (entriesOf s.me.queue).any fun e => drainsWith e.instr) s fun s =>
    if messagesDue s then holdAt (.vdrain sc) s else (drainPath (drainStores s.myCore (fun v => v.strand == s.me.sid) s)).retire)

/-! Decide-once cells (R245). -/

/-- The releases that the answer for the cell of a place meets: those of the winner, kept at the home or with the copy that answers;
of an empty cell those of the clear that emptied it; none for a stale answer (15 R279 R280). -/
def cellSig (s : State) (p : Place) : Sig :=
  match localCell s s.agent p with
  | some c => c.sig
  | none =>
    let o := s.once (frameOf p.loc.pa)
    let i := p.loc.pa % 0x10000 / 16
    if !accepts s (frameOf p.loc.pa) p.gen then []
    else if (Map.get? o.cells i).isSome then Map.getD o.sigs i [] else o.sig

end Sys2Proof.Machine
end

