-- ==== Sys2Proof/Machine/SysOps.lean ====
section
/-! DEFINITION. The home and bank instructions of the scalar side: PROPOSE and OREAD (13_ref_memory R245), append pages
(R247), OCLEAR (07 R120), arrival barriers (R249 R250), sync registers (R251 R252), CDRAIN (R253) and HSTAT (14 R271). -/

namespace Sys2Proof.Machine

/-! Decide-once cells (R245). -/

/-- PROPOSE: acquire-release at its scope (R245, 07 R116). That it ends a waiting release fence whatever its answer is, while APP answered
FULL and APPAT answered 1 or 2 leave the fence waiting, is the model's choice (15 R279; log entry 45). -/
def execPropose (d a b : SReg) (sc : Scope) (s : State) : Out :=
  .next (named [d, pairReg d, a, b] s fun s =>
    let adr := s.rd a
    let s := touch s s.agent adr
    match check s s.agent (.onceOp true) adr 16 16 with
    | .error t => scalarTrap (.propose d a b sc) t s
    | .ok p =>
      let sig := cellSig s p
      let rel := (writeRelease s (some sc)).getD sc
      let s := endFence (drainPath s)
      let (s, w, st) := proposeAt s s.agent rel sc p (s.rd b)
      (((noteRead s sig).wr d w).wr (pairReg d) (BitVec.ofNat 64 st)).retire)

/-- OREAD: an acquire at its scope (R245, 07 R118). -/
def execOread (d a : SReg) (sc : Scope) (s : State) : Out :=
  .next (named [d, pairReg d, a] s fun s =>
    let adr := s.rd a
    let s := touch s s.agent adr
    match check s s.agent (.onceOp false) adr 16 16 with
    | .error t => scalarTrap (.oread d a sc) t s
    | .ok p =>
      let s := drainReleases s
      let sig := cellSig s p
      let (s, w, st) := oreadAt s s.agent sc p
      (((noteRead s sig).wr d w).wr (pairReg d) (BitVec.ofNat 64 st)).retire)

/-! Append pages (R247, 07 R106 to R111). -/

/-- The waiting release fence covers the append: its release stays with the page and with the bytes (15 R279). -/
def appendSig (s : State) (f o : Nat) (sig : Sig) : State :=
  let p := s.app f
  keepSig { s with apps := Map.set s.apps f { p with sig := unionList p.sig sig } } s.agent (.gen (f * 0x10000 + o) .append 0) 8 sig true

/-- Eight bytes reserved at offset o and filled, in one step (R106), after the accesses before a release fence (15 R279); none in a lost line (27 R364; log entry 61). -/
def appendWord (i : Instr) (d a : SReg) (answer : Word) (f o : Nat) (x : Word) (s : State) : State :=
  let bs := bytesOfNat 8 x.toNat
  if s.lost (f * 0x10000 + o) 8 then scalarTrap i { cause := .dataLost, addr := s.rd a } s else
  let rel := s.me.ord.relFence
  let s := appendNow (endFence (drainFenced s)) f o bs
  ((match rel with
    | some sc => appendSig s f o (releaseSig s s.agent sc)
    | none => s).wr d answer).retire

/-- An append instruction: the page, and the answer of its home. -/
def appendOp (i : Instr) (d a b : SReg) (align : Nat) (k : Nat → State → State) (s : State) : State :=
  named [d, a, b] s fun s =>
    let s := touch s s.agent (s.rd a)
    match check s s.agent (.appendOp true) (s.rd a) align align with
    | .error t => scalarTrap i t s
    | .ok p => k (frameOf p.loc.pa) (drainMark (frameOf p.loc.pa) s)

/-- APP (R107). Answered FULL it writes nothing and leaves a release fence waiting (log entry 45). -/
def execApp (d a b : SReg) (s : State) : Out :=
  .next (appendOp (.app d a b) d a b 1 (fun f s =>
    match (s.app f).reserve 8 with
    | .sealed_ => scalarTrap (.app d a b) { cause := .writeAfterSeal, addr := s.rd a } s
    | .full => (s.wr d fullWord).retire
    | .offset o => appendWord (.app d a b) d a (BitVec.ofNat 64 o) f o (s.rd b) s) s)

/-- APPAT (R108). Answered 1 or 2 it writes nothing and leaves a release fence waiting (log entry 45). -/
def execAppat (d a b : SReg) (s : State) : Out :=
  .next (appendOp (.appat d a b) d a b 8 (fun f s =>
    let o := bitsOf (s.rd a).toNat 15 0
    let p := s.app f
    if o < p.tail then (s.wr d 1).retire
    else if p.state ≠ .open_ then scalarTrap (.appat d a b) { cause := .writeAfterSeal, addr := s.rd a } s
    else if p.tail < o then (s.wr d 2).retire
    else appendWord (.appat d a b) d a 0 f o (s.rd b) s) s)

/-- SEAL while it waits at the home of its page: it completes once the page is sealed; a page that FREE took first raises NOT-PRESENT (R111,
24 R339). -/
def sealWait (a : SReg) (s : State) : State :=
  match s.me.wait.sealed with
  | none => s
  | some true => s.retire
  | some false => scalarTrap (.sealPage a) { cause := .notPresent, addr := s.rd a } s

/-- SEAL: a release at SYSTEM scope; the strand waits until the page is sealed (R111). -/
def execSealPage (a : SReg) (s : State) : Out :=
  .next (named [a] s fun s =>
    match s.me.wait.frame with
    | some _ => sealWait a s
    | none =>
      let s := touch s s.agent (s.rd a)
      match check s s.agent (.appendOp true) (s.rd a) 1 1 with
      | .error t => scalarTrap (.sealPage a) t s
      | .ok p =>
        let f := frameOf p.loc.pa
        let s := drainPath s
        let s := sealAt s f (releaseSig s s.agent .system)
        if (s.app f).state = .sealed_ then s.retire
        else holdAt (.sealPage a) (s.modMe fun t => { t with wait := { t.wait with frame := some f } }))

/-- APPMARK, a relaxed read of home state: it may wait (R110, 15 R277 R287). -/
def execAppmark (d a : SReg) (s : State) : Out :=
  .next (named [d, a] s fun s =>
    let s := touch s s.agent (s.rd a)
    match check s s.agent (.appendOp false) (s.rd a) 1 1 with
    | .error t => scalarTrap (.appmark d a) t s
    | .ok p =>
      let f := frameOf p.loc.pa
      if s.later then
        (waitBehind s { loc := .gen (f * 0x10000) .append 0, data := [], rt := .uc, load := some ⟨d, 8, false⟩, mark := some f }).retire
      else
        let s := drainMark f s
        ((noteRead s (s.app f).sig).wr d (s.app f).word).retire)

/-- The end of OCLEAR: its acquire at SYSTEM scope, of what the releases of its page carry (R120, 15 R281). -/
def clearDone (f : Nat) (s : State) : State := (acquire s s.agent .system (s.once f).sig).retire

/-- OCLEAR waits for the clear of the generation it met (R120). -/
def clearWait (a : SReg) (g f : Nat) (s : State) : State :=
  match Map.get? s.onces f with
  | none => clearDone f s
  | some o => if o.gen = g ∧ o.clearing then holdAt (.oclear a) s else clearDone f s

/-- The releases that an OCLEAR meets at the home: those of the winners of the cells it empties, and of earlier clears (R120, 15 R281). -/
def clearMeets (s : State) (f : Nat) : Sig := (s.once f).sigs.foldl (fun l p => unionList l p.2) (s.once f).sig

/-- An OCLEAR is a release at SYSTEM scope: it stays with the page and is met by every answer after the clear (R120, 15 R285
R287). -/
def clearRelease (f : Nat) (s : State) : State :=
  { s with onces := Map.set s.onces f { s.once f with sig := unionList (s.once f).sig (releaseSig s s.agent .system) } }

/-- OCLEAR (R120): it joins a clear in progress, and waits for a shoot-down of the page (24 R339). `mark` holds the frame and
the generation. -/
def execOclear (a : SReg) (s : State) : Out :=
  .next (if s.me.level = .k then scalarTrap (.oclear a) { cause := .privilege } s
    else named [a] s fun s =>
      match s.me.wait.mark with
      | some m => clearWait a (m % 2 ^ 32) (m / 2 ^ 32) s
      | none =>
        let adr := s.rd a
        let s := touch s s.agent adr
        match check s s.agent .clearOp adr 1 1 with
        | .error t => scalarTrap (.oclear a) t s
        | .ok p =>
          let f := frameOf p.loc.pa
          let g := (s.once f).gen
          if s.shoots.any fun x => !x.clear && (x.meets s.me.part (adr.toNat / 0x10000) false || x.frames.contains f) then
            holdAt (.oclear a) s
          else
            let s := drainPath s
            let s := clearRelease f (acquire s s.agent .system (clearMeets s f))
            let s := if (s.once f).clearing then s else clearPage s adr.toNat f
            let s := s.modMe fun t => { t with wait := { t.wait with mark := some (f * 2 ^ 32 + g) } }
            clearWait a g f s)

/-! Arrival barriers (R249 R250, 08 R131). -/

/-- An event at the barrier of s[A]: a scalar write, a release at its scope when `rel`; it may wait (15 R277 R279 R287). -/
def barrierOp (i : Instr) (a : SReg) (rs : List SReg) (rel : Bool) (ev : State → Option BarrierEvent) (s : State) : State :=
  computeOnly i s fun s => named (a :: rs) s fun s =>
    match barrierTrap s s.agent (s.rd a) with
    | .error t => scalarTrap i t s
    | .ok (core, off) =>
      match ev s with
      | none => scalarTrap i { cause := .illegal } s
      | some e =>
        let g := s.me.id.gang
        let w := writeRelease s (if rel then some (barrierScope s core) else none)
        let s := endFence s
        if s.later then
          (waitBehind s { loc := .spad g core off, data := [], rt := .uc, bar := some e, rel := w, own := rel }).retire
        else
          let s := beforeWrite s rel (.spad g core off) 16
          let sig := match w with
            | some sc => releaseSig s s.agent sc
            | none => ([] : Sig)
          (barrierStep s g core off e sig).retire

def execAbinit (a b : SReg) (s : State) : Out :=
  .next (barrierOp (.abinit a b) a [b] false (fun s =>
    let n := (s.rd b).toNat
    if n = 0 ∨ 65535 < n then none else some (.init n)) s)
def execAbexpect (a b : SReg) (s : State) : Out :=
  .next (barrierOp (.abexpect a b) a [b] true (fun s =>
    if bitsOf (s.rd b).toNat 63 31 ≠ 0 then none else some (.expect (s.rd b).toNat)) s)
def execAbarrive (a : SReg) (s : State) : Out := .next (barrierOp (.abarrive a) a [] true (fun _ => some .arrive) s)

/-- The acquire of a barrier that was read: of the counts and arrivals of its last completed phase, whatever the barrier's own scope, and
of the releases that the bytes of GEN carry, as any acquire at its scope (17 R300, 15 R280; log entry 72). -/
def barrierAcquire (core off : Nat) (s : State) : State :=
  let done := (Map.getD (s.core core).barSig (barrierKey s.me.id.gang off) {}).done
  let here := sigOf s (.spad s.me.id.gang core (off + 8)) 4
  noteRead (acquire (acquirePhase s s.agent done) s.agent (barrierScope s core) here) (unionList done here)

/-- The barrier of s[A] read, with the acquire that follows when it has the phase asked for. -/
def barrierRead (i : Instr) (a : SReg) (rs : List SReg) (k : Barrier → (State → State) → State → State) (s : State) : State :=
  computeOnly i s fun s => named (a :: rs) s fun s =>
    match barrierTrap s s.agent (s.rd a) with
    | .error t => scalarTrap i t s
    | .ok (core, off) =>
      let g := s.me.id.gang
      let s := drainReleases (drainOverlap s (.spad g core off) 16)
      let (s, b) := barrierAt s g core off
      k b (barrierAcquire core off) s

/-- ABWAIT (R250). -/
def execAbwait (a b : SReg) (s : State) : Out :=
  .next (barrierRead (.abwait a b) a [b] (fun x acq s =>
    if x.gen % 2 ≠ (s.rd b).toNat % 2 then (acq s).retire
    else if x.broken then scalarTrap (.abwait a b) { cause := if x.lost then .dataLost else .arrivalOverflow } s
    else if timedOut s s.me.wait.since then s.retire
    else sleepNow (.abwait a b) s) s)

/-- ABTEST (R249). -/
def execAbtest (d a : SReg) (s : State) : Out :=
  .next (barrierRead (.abtest d a) a [d] (fun x acq s => ((acq s).wr d (BitVec.ofNat 64 x.genField)).retire) s)

/-! Sync registers (R251 R252, 05 R80 to R82). -/

/-- The number names a register of the partition (05 R82, 22 R308). -/
def syncTrap (s : State) (x : Word) : Option Trap :=
  let al := (s.part s.me.part).sralloc.toNat
  let n := x.toNat
  if bitsOf n 63 14 ≠ 0 ∨ bitsOf al 30 16 ≤ (n + 16384 - bitsOf al 13 0) % 16384 then some { cause := .protection } else none

/-- The die that holds a sync register (05 R80). -/
def syncHome (n : Nat) : Nat := n / 4096 % 4

/-- The value a die reads: the home's own, or its mirror's. -/
def syncView (s : State) (d n : Nat) : SyncReg :=
  if d = syncHome n then Map.getD s.syncs n {} else Map.getD (s.die d).mirror n {}

/-- Every change on its way to a die's mirrors is applied there, in order (05 R80). -/
def applySyncs (s : State) (d : Nat) : State :=
  match Map.get? s.dies d with
  | none => s
  | some x =>
    if x.syncPend.isEmpty then s else
    { s with dies := Map.set s.dies d { x with mirror := x.syncPend.foldl (fun m p => Map.set m p.1 p.2) x.mirror, syncPend := [] } }

/-- A change at the home, sent to the other dies; the issuing die's mirror has it at once (05 R80 R81). -/
def syncChange (s : State) (n : Nat) (r : SyncReg) : State :=
  let s := { s with syncs := Map.set s.syncs n r }
  let s := ((upto 4).filter (· != syncHome n)).foldl (fun s d => s.modDie d fun x => { x with syncPend := x.syncPend ++ [(n, r)] }) s
  if s.later then applySyncs s (dieOfKey s.key) else (upto 4).foldl applySyncs s

/-- SRTAS and SRFADD: acquire-release at DEVICE scope, applied at the home (R251, 16 R292). -/
def syncOp (i : Instr) (d a b : SReg) (f : Word → Word → Word) (s : State) : State :=
  named [d, a, b] s fun s =>
    match syncTrap s (s.rd a) with
    | some t => scalarTrap i t s
    | none =>
      let n := (s.rd a).toNat
      let rel := (writeRelease s (some .device)).getD .device
      let s := endFence (drainPath s)
      let r := Map.getD s.syncs n {}
      let s := syncChange s n { val := f r.val (s.rd b), sig := unionList r.sig (releaseSig s s.agent rel) }
      ((noteRead (acquire s s.agent .device r.sig) r.sig).wr d r.val).retire

def execSrtas (d a b : SReg) (s : State) : Out :=
  .next (syncOp (.srtas d a b) d a b (fun old x => if old = 0 then x else old) s)
def execSrfadd (d a b : SReg) (s : State) : Out := .next (syncOp (.srfadd d a b) d a b (fun old x => old + x) s)

/-- SRREAD: the local mirror, an acquire at DEVICE scope (R251). -/
def execSrread (d a : SReg) (s : State) : Out :=
  .next (named [d, a] s fun s =>
    match syncTrap s (s.rd a) with
    | some t => scalarTrap (.srread d a) t s
    | none =>
      let s := drainReleases s
      let r := syncView s (dieOfKey s.key) (s.rd a).toNat
      ((noteRead (acquire s s.agent .device r.sig) r.sig).wr d r.val).retire)

/-- SRWAIT (R252). -/
def execSrwait (d a b : SReg) (s : State) : Out :=
  .next (named [d, a, b] s fun s =>
    match syncTrap s (s.rd a) with
    | some t => scalarTrap (.srwait d a b) t s
    | none =>
      let s := drainReleases s
      let r := syncView s (dieOfKey s.key) (s.rd a).toNat
      if !r.val.ult (s.rd b) then ((noteRead (acquire s s.agent .device r.sig) r.sig).wr d r.val).retire
      else if timedOut s s.me.wait.since then (s.wr d r.val).retire
      else sleepNow (.srwait d a b) s)

/-! CDRAIN (R253, 08 R128 R134). -/

/-- The copies that CDRAIN waits for: a TCOPY of the channel in the strand's queue, and the rows on their way that are the strand's
own or were accepted before the CDRAIN reached the engine (08 R128). -/
def channelBusy (s : State) (c : Nat) : Bool :=
  ((entriesOf s.me.queue).any fun e => (match e.instr with
    | .tcopy _ _ _ => true
    | _ => false) && e.chan == c)
  || (s.core s.myCore).chunks.any fun k => k.chan == c && (k.strand == s.me.sid || decide (k.order < s.me.wait.rows.getD (k.order + 1)))

/-- CDRAIN reaches the engine: the rows accepted by then are those of the other strands that it waits for (08 R128). -/
def reachEngine (s : State) : State :=
  s.modMe fun t => { t with wait := { t.wait with rows := some (t.wait.rows.getD (s.core s.myCore).rows) } }

/-- CDRAIN: once the channel's copies are performed, a lost chunk is reported once; else later releases cover the copies (08
R134, 17 R301). -/
def drainChannel (i : Instr) (c : Nat) (s : State) : State :=
  let s := if s.later then s else landAll (runQueue s) s.myCore
  if s.me.status == .stopped then s
  else if channelBusy s c then sleepNow i (reachEngine s)
  else
    let x := Map.getD (s.core s.myCore).chans c {}
    if x.lost then
      faultAt { word := (encode i).toNat, trap := { cause := .dataLost }, chan := some c } s
    else if x.landed.isEmpty then s.retire
    else (s.modCore s.myCore fun y => { y with
      chans := Map.set y.chans c { x with landed := [] }, written := unionList y.written x.landed }).retire

def execCdrain (a : BitVec 6) (s : State) : Out :=
  .next (computeOnly (.cdrain a) s fun s => drainChannel (.cdrain a) (a.toNat % 8) s)

/-! HSTAT (14 R271, 06 R86). -/

/-- The history entries HSTAT waits for. -/
def isHistory : Instr → Bool
  | .happend _ _ | .hloade _ _ _ | .hloadr _ _ _ | .hsync _ => true
  | _ => false

/-- HSTAT (R271). -/
def hstatNow (d a : SReg) (s : State) : State :=
  match bindStream s (s.rd a) with
  | (s, .error t) => scalarTrap (.hstat d a) t s
  | (s, .ok key) =>
    let s := settleEngine s key
    match Map.get? s.streams key with
    | none => scalarTrap (.hstat d a) (streamTrap 0) s
    | some x =>
      let s := acquire (drainReleases s) s.agent x.scope x.sig
      let w := BitVec.ofNat 64 (x.faulted.toNat + x.fcause * 256 + x.pend * 65536)
      ((s.wr d (BitVec.ofNat 64 x.head)).wr (pairReg d) w).retire

def execHstat (d a : SReg) (s : State) : Out :=
  .next (computeOnly (.hstat d a) s fun s => named [d, pairReg d, a] s fun s =>
    afterLanes (fun s => (entriesOf s.me.queue).any fun e => isHistory e.instr) s (hstatNow d a))

end Sys2Proof.Machine
end

