-- ==== Sys2Proof/Machine/Events.lean ====
section
/-! DEFINITION. The steps without a word that the dispatch units, the engines and the homes make: queues and gangs
(23_scheduling), traps of Fliven strands (22 R309), waits that end (11 R180 R203), the copy engine (08_copies), tile writes
(09 R149), reduction messages (05 R78), the course engines (06_courses), fills (07 R106), shoot-downs (24 R338), mirrors (05
R80), and words that encode nothing (10 R171). -/

namespace Sys2Proof.Machine

/-! The dispatch unit. -/

/-- A dispatch unit works once the part is READY, for a partition and a queue that exist (23 R319, 27 R356 R359). -/
def dispatching (s : State) (p q : Nat) : Bool := s.stage == .ready && decide (p < s.nparts) && decide (q < 64)

/-- WIDX_WRITE: the host's write, acted on at READY (23 R320, 27 R359). -/
def execWidxWrite (p q v : Nat) (s : State) : Out :=
  .next (if s.nparts ≤ p ∨ 64 ≤ q ∨ !s.linkUp then s
    else rereadDesc (physWrite s (descAddr s p q + 16) (bytesOfNat 4 (v % 2 ^ 32))) p q)

/-- QUEUE_STATE_WRITE (23 R319). -/
def execQueueStateWrite (p q v : Nat) (s : State) : Out :=
  .next (if s.nparts ≤ p ∨ 64 ≤ q ∨ !s.linkUp then s
    else
      let s := physWrite s (descAddr s p q + 12) [BitVec.ofNat 8 v]
      if v % 256 = 1 then rereadDesc s p q else forgetHead s p q)

def execTaskHeadCheck (p q : Nat) (s : State) : Out := .next (if dispatching s p q then readHead s p q else s)
def execDependenceEvaluation (p q : Nat) (s : State) : Out := .next (if dispatching s p q then evaluateHead s p q else s)

/-- START_TIME_REACHED (23 R323). -/
def execStartTimeReached (p q : Nat) (s : State) : Out :=
  .next (match (s.queueInfo p q).head with
    | none => s
    | some t => if dispatching s p q && t.start ≤ s.now then evaluateHead s p q else s)

def execTaskSelection (p : Nat) (s : State) : Out := .next (if dispatching s p 0 then selectTask s p else s)
def execGangPlacement (p : Nat) (s : State) : Out := .next (if dispatching s p 0 then placeOne s p else s)
def execGangStart (g : Nat) (s : State) : Out := .next (startGang s g)

/-- LAUNCH_COMPLETION (23 R327). -/
def execLaunchCompletion (lk : Nat) (s : State) : Out :=
  .next (match Map.get? s.launches lk with
    | none => s
    | some l => if launchOver l then completeLaunch s lk else s)

def execStallRotation (lk : Nat) (s : State) : Out := .next (rotateLaunch s lk)

/-- PD_DEFERRAL_EXPIRY (22 R307). -/
def execPdDeferralExpiry (k : Nat) (s : State) : Out :=
  .next (match s.strand? k with
    | none => s
    | some t => if t.fliven then s else heedStop s t.id.gang)

def execFaultRecordRetry (p : Nat) (s : State) : Out := .next (frqDrain p (s.part p).held.length s)

/-! Fliven strands (22 R309). -/

/-- The subcode that a trap shows: SHAPE, STREAM and PROTECTION have one, every other cause 0 (25 R344). -/
def subcodeOf (c : Cause) (sub : Nat) : Nat :=
  match c with
  | .shape | .stream | .protection => sub % 256
  | _ => 0

/-- FLIVEN_TRAP: strand k takes a trap; EVAL receives `val`. PREEMPT is no fault, and no strand traps for it (25 R344). -/
def execFlivenTrap (k : Nat) (c : Cause) (sub : Nat) (val : Word) (s : State) : Out :=
  .next (s.asStrand (Config.flivenBase + k) fun s =>
    if s.me.fliven && s.me.status == .ready && c != .preempt then flivenTrap val.toNat { cause := c, sub := subcodeOf c sub, addr := val } s
    else s)

/-- FLIVEN_WATCHDOG_RESET: the core starts at the firmware's entry point, and the cause is on the log (log entry 8). Its CLK goes on: that
is the model's choice (11 R202; log entry 11). -/
def watchdog (k : Nat) (s : State) : State :=
  match s.strand? (Config.flivenBase + k) with
  | none => s
  | some t =>
    match t.fl.dead with
    | none => s
    | some c => (logEntry s 2 c).putStrand (Config.flivenBase + k) { Strand.flivenReset k with pc := s.fwEntry }

def execFlivenWatchdogReset (k : Nat) (s : State) : Out := .next (watchdog k s)

/-! Waits that end (11 R180 R203). -/

/-- Does something as a strand that runs. -/
def State.asReady (s : State) (k : Nat) (f : State → State) : State :=
  s.asStrand k fun s => if s.me.status == .ready then f s else s

/-- The state an outcome goes on with. -/
def Out.state (o : Out) (s : State) : State :=
  match o with
  | .next t => t
  | .fault _ | .refused _ => s

/-- WAIT_TIMEOUT: the waits that time out are tested again, now that WTO ns have passed (11 R180). -/
def endTimedWait (s : State) : State :=
  if timedOut s s.me.wait.since || timedOut s s.me.wait.laneSince then
    match s.me.wait.on_ with
    | some (.abwait a b) => Out.state (execAbwait a b s) s
    | some (.srwait d a b) => Out.state (execSrwait d a b s) s
    | _ => runQueue s
  else s

def execWaitTimeout (k : Nat) (s : State) : Out := .next (s.asReady k endTimedWait)

/-- WAITUNTIL_TIME_REACHED (11 R203). -/
def execWaituntilTimeReached (k : Nat) (s : State) : Out :=
  .next (s.asReady k fun s => match s.me.wait.on_ with
    | some (.waituntil a) => if (s.rd a).toNat ≤ s.now then waitUntil a s else s
    | _ => s)

/-! The copy engine (08_copies). -/

def execCopyChunkLanding (core n : Nat) (s : State) : Out := .next (reapGangs (landChunk s core n))

/-- The first source byte of a chunk when it lies in device memory. -/
def Chunk.devSource (c : Chunk) : Option Nat :=
  match c.src.at (c.lo * c.ssize) with
  | .gen pa _ _ => if pa < Config.deviceBytes then some pa else none
  | .spad _ _ _ => none

/-- COPY_CHUNK_LOST: the read was uncorrectable, so its line is lost as well (08 R134, 27 R364). A chunk whose bytes were
read as its row was accepted has no read left. -/
def chunkLost (core n : Nat) (s : State) : State :=
  match (s.core core).chunks[n]? with
  | none => s
  | some c =>
    if !c.data.isEmpty then s else
    let s := match c.devSource with
      | some pa => uncorrectable pa s
      | none => s
    reapGangs (loseChunk s core n c)

def execCopyChunkLost (core n : Nat) (s : State) : Out := .next (chunkLost core n s)

/-- CHANNEL_CREDIT_WAIT: a TCOPY at the head of a queue tries again to take its credits (08 R126). -/
def execChannelCreditWait (k : Nat) (s : State) : Out :=
  .next (s.asReady k fun s => match s.me.queue with
    | .entry e :: _ => (match e.instr with
      | .tcopy _ _ _ => lanesTurn s
      | _ => s)
    | _ => s)

/-- STREAM_REFILL (08 R140). -/
def execStreamRefill (k q : Nat) (s : State) : Out :=
  .next (if 4 ≤ q then s else s.asReady k fun s => refillOne s q)

def execTldmTileWrite (core : Nat) (s : State) : Out := .next (reapGangs (landTileWrite s core))

/-- REDUCTION_MESSAGE: the bank unit applies the n-th message on its way, if none of the same core comes before it (05 R78). -/
def execReductionMessage (core n : Nat) (s : State) : Out :=
  .next (match (s.core core).redMsgs[n]? with
    | none => s
    | some m =>
      if ((s.core core).redMsgs.take n).any fun r => r.src == m.src then s
      else reapGangs (landMessage core (s.modCore core fun y => { y with redMsgs := y.redMsgs.eraseIdx n }) m))

/-! The course engines (06_courses). -/

def execStreamRecordTake (key : Nat) (s : State) : Out := .next (takeRecord s key)
def execCourseMerge (key : Nat) (s : State) : Out := .next (mergeAt s key)
def execCourseExpiry (key : Nat) (s : State) : Out := .next (expireAt s key)

/-! The homes. -/

def execAppendReservationFill (f n : Nat) (s : State) : Out := .next (fillReservation s f n)

/-- The shoot-down of a page that still waits for a holder. -/
def shootWaiting (s : State) (page : Nat) (waits : Shoot → Bool) : Option Nat :=
  s.shoots.findIdx? fun x => x.vpage == page && waits x

/-- SHOOTDOWN_ACK: holders 0 to 3 are the dies, 4 and up the peers (24 R338). -/
def execShootdownAck (page h : Nat) (s : State) : Out :=
  .next (if h < 4 then
      match shootWaiting s page fun x => x.dies.contains h with
      | some n => ackDie s n h
      | none => s
    else match shootWaiting s page fun x => x.peers.contains (h - 4) with
      | some n => ackPeer s n (h - 4)
      | none => s)

/-- The 24 causes (25 R344). -/
def allCauses : List Cause :=
  [.illegal, .privilege, .registerRange, .format, .vlRange, .misalign, .notPresent, .protection, .pageType, .writeAfterSeal,
   .appendBeyond, .shape, .arrivalOverflow, .scratchpadRange, .gate, .stream, .fp, .trap, .break_, .dataLost,
   .stallCapacity, .launchRange, .queueRecord, .preempt]

/-- A cause that the manual leaves open (log entry 27). -/
def openCause (n : Nat) : Cause := (allCauses[Config.freeValue n % 24]?).getD .illegal

/-- A peer that has not answered is marked failed, a record of KIND 4 names it, and the shoot-down goes on without it (24
R338, 25 R343). -/
def failPeer (n q : Nat) (x : Shoot) (s : State) : State :=
  let die := stackOf (((x.frames.head?).getD 0) * 0x10000) / 2
  let m := linkMark x.part q
  let s := { s with failedPeers := if s.failedPeers.contains m then s.failedPeers else s.failedPeers ++ [m]
                    drawn := s.drawn + 1 }
  ackPeer (postUnit s x.part (die * 256) 4 { cause := openCause (s.drawn - 1), info := BitVec.ofNat 64 q }) n q

/-- PEER_ACK_TIMEOUT (24 R338). -/
def execPeerAckTimeout (page q : Nat) (s : State) : Out :=
  .next (match shootWaiting s page fun x => x.peers.contains q with
    | none => s
    | some n =>
      match s.shoots[n]? with
      | none => s
      | some x => if x.since + Config.peerTimeout ≤ s.now then failPeer n q x s else s)

/-- SYNC_MIRROR_UPDATE: a die's mirror applies the oldest change on its way (05 R80). -/
def execSyncMirrorUpdate (die : Nat) (s : State) : Out :=
  .next (match (s.die die).syncPend with
    | [] => s
    | (n, r) :: rest => s.modDie die fun x => { x with mirror := Map.set x.mirror n r, syncPend := rest })

/-- UNALLOCATED_ENCODING (10 R171 R172). -/
def execUnallocatedEncoding (w : Word32) (s : State) : Out :=
  .next (faultAt { word := w.toNat, trap := { cause := .illegal } } s)

end Sys2Proof.Machine
end

