-- ==== Sys2Proof/Machine/ScalarAlu.lean ====
section
/-! DEFINITION. The scalar arithmetic of 11_ref_control R182, R184 to R186. -/

namespace Sys2Proof.Machine

/-! The results of R182. -/

def ones : Word := BitVec.allOnes 64

/-- The shift count: bits 5–0 of b. -/
def countOf (b : Word) : Nat := b.toNat % 64

def boolWord (c : Bool) : Word := if c then 1 else 0

/-- Bits 127–64 of a product of integers. -/
def highWord (p : Int) : Word := BitVec.ofInt 64 (p / 2 ^ 64)

/-- Division rounds toward zero; by zero it gives all ones (R182, 04_numbers R46). -/
def divSigned (a b : Word) : Word := if b = 0 then ones else BitVec.ofInt 64 (a.toInt.tdiv b.toInt)
def divUnsigned (a b : Word) : Word := if b = 0 then ones else BitVec.ofNat 64 (a.toNat / b.toNat)
def remSigned (a b : Word) : Word := if b = 0 then a else BitVec.ofInt 64 (a.toInt.tmod b.toInt)
def remUnsigned (a b : Word) : Word := if b = 0 then a else BitVec.ofNat 64 (a.toNat % b.toNat)

/-- Leading zero bits, trailing zero bits and set bits of a word. -/
def leadZeros (a : Word) : Nat := ((upto 64).find? fun k => a.getLsbD (63 - k)).getD 64
def trailZeros (a : Word) : Nat := ((upto 64).find? fun k => a.getLsbD k).getD 64
def setBits (a : Word) : Nat := ((upto 64).filter fun k => a.getLsbD k).length

/-- sext of the low w bits. -/
def signLow (w : Nat) (a : Word) : Word := BitVec.ofInt 64 (sx w a.toNat)

/-! One shape for each mould. -/

/-- write_s(D, f(s[A], s[B])). -/
def aluOp (d a b : SReg) (f : Word → Word → Word) (s : State) : State :=
  named [d, a, b] s fun s => (s.wr d (f (s.rd a) (s.rd b))).retire

/-- write_s(D, f(s[A])). -/
def unaryOp (d a : SReg) (f : Word → Word) (s : State) : State :=
  named [d, a] s fun s => (s.wr d (f (s.rd a))).retire

/-- The meanings of R182. -/
def execAdd (d a b : SReg) (s : State) : Out := .next (aluOp d a b (fun x y => x + y) s)
def execSub (d a b : SReg) (s : State) : Out := .next (aluOp d a b (fun x y => x - y) s)
def execAnd (d a b : SReg) (s : State) : Out := .next (aluOp d a b (fun x y => x &&& y) s)
def execOr (d a b : SReg) (s : State) : Out := .next (aluOp d a b (fun x y => x ||| y) s)
def execXor (d a b : SReg) (s : State) : Out := .next (aluOp d a b (fun x y => x ^^^ y) s)
def execAndn (d a b : SReg) (s : State) : Out := .next (aluOp d a b (fun x y => x &&& ~~~y) s)
def execShl (d a b : SReg) (s : State) : Out := .next (aluOp d a b (fun x y => x <<< countOf y) s)
def execShr (d a b : SReg) (s : State) : Out := .next (aluOp d a b (fun x y => x >>> countOf y) s)
def execSar (d a b : SReg) (s : State) : Out := .next (aluOp d a b (fun x y => x.sshiftRight (countOf y)) s)
def execSlt (d a b : SReg) (s : State) : Out := .next (aluOp d a b (fun x y => boolWord (x.slt y)) s)
def execSltn (d a b : SReg) (s : State) : Out := .next (aluOp d a b (fun x y => boolWord (x.ult y)) s)
def execMin (d a b : SReg) (s : State) : Out := .next (aluOp d a b (fun x y => if x.slt y then x else y) s)
def execMax (d a b : SReg) (s : State) : Out := .next (aluOp d a b (fun x y => if x.slt y then y else x) s)
def execMinn (d a b : SReg) (s : State) : Out := .next (aluOp d a b (fun x y => if x.ult y then x else y) s)
def execMaxn (d a b : SReg) (s : State) : Out := .next (aluOp d a b (fun x y => if x.ult y then y else x) s)
def execMul (d a b : SReg) (s : State) : Out := .next (aluOp d a b (fun x y => x * y) s)
def execMulh (d a b : SReg) (s : State) : Out := .next (aluOp d a b (fun x y => highWord (x.toInt * y.toInt)) s)
def execMulhn (d a b : SReg) (s : State) : Out :=
  .next (aluOp d a b (fun x y => BitVec.ofNat 64 (x.toNat * y.toNat / 2 ^ 64)) s)
def execDiv (d a b : SReg) (s : State) : Out := .next (aluOp d a b divSigned s)
def execDivn (d a b : SReg) (s : State) : Out := .next (aluOp d a b divUnsigned s)
def execRem (d a b : SReg) (s : State) : Out := .next (aluOp d a b remSigned s)
def execRemn (d a b : SReg) (s : State) : Out := .next (aluOp d a b remUnsigned s)
def execClz (d a : SReg) (s : State) : Out := .next (unaryOp d a (fun x => BitVec.ofNat 64 (leadZeros x)) s)
def execCtz (d a : SReg) (s : State) : Out := .next (unaryOp d a (fun x => BitVec.ofNat 64 (trailZeros x)) s)
def execPopc (d a : SReg) (s : State) : Out := .next (unaryOp d a (fun x => BitVec.ofNat 64 (setBits x)) s)
def execSextb (d a : SReg) (s : State) : Out := .next (unaryOp d a (signLow 8) s)
def execSexth (d a : SReg) (s : State) : Out := .next (unaryOp d a (signLow 16) s)
def execSextw (d a : SReg) (s : State) : Out := .next (unaryOp d a (signLow 32) s)

/-! Immediates (R184 to R186). -/

/-- sext of a 12-bit immediate. -/
def imm12 (i : BitVec 12) : Word := i.signExtend 64

def execAddi (d a : SReg) (i : BitVec 12) (s : State) : Out := .next (unaryOp d a (fun x => x + imm12 i) s)
def execAndi (d a : SReg) (i : BitVec 12) (s : State) : Out := .next (unaryOp d a (fun x => x &&& imm12 i) s)
def execOri (d a : SReg) (i : BitVec 12) (s : State) : Out := .next (unaryOp d a (fun x => x ||| imm12 i) s)
def execXori (d a : SReg) (i : BitVec 12) (s : State) : Out := .next (unaryOp d a (fun x => x ^^^ imm12 i) s)
def execSlti (d a : SReg) (i : BitVec 12) (s : State) : Out := .next (unaryOp d a (fun x => boolWord (x.slt (imm12 i))) s)
def execSltin (d a : SReg) (i : BitVec 12) (s : State) : Out := .next (unaryOp d a (fun x => boolWord (x.ult (imm12 i))) s)
def execShli (d a : SReg) (c : BitVec 6) (s : State) : Out := .next (unaryOp d a (fun x => x <<< c.toNat) s)
def execShri (d a : SReg) (c : BitVec 6) (s : State) : Out := .next (unaryOp d a (fun x => x >>> c.toNat) s)
def execSari (d a : SReg) (c : BitVec 6) (s : State) : Out := .next (unaryOp d a (fun x => x.sshiftRight c.toNat) s)

/-- sext(IMM20) × 4,096. -/
def imm20 (i : BitVec 20) : Word := i.signExtend 64 <<< 12

/-- LUI (R186). -/
def execLui (d : SReg) (i : BitVec 20) (s : State) : Out := .next (named [d] s fun s => (s.wr d (imm20 i)).retire)

/-- ADDPC (R186). -/
def execAddpc (d : SReg) (i : BitVec 20) (s : State) : Out :=
  .next (named [d] s fun s => (s.wr d (s.me.pc + imm20 i)).retire)

end Sys2Proof.Machine
end

