-- ==== Sys2Proof/Machine/Vector.lean ====
section
/-! DEFINITION. The vector words of 12_ref_vector and 13_ref_memory R235 to R240: each is checked at decode and pushed; what
its entry does in the lanes stands in Lanes, VecArith and VecMem. -/

namespace Sys2Proof.Machine

/-- VADD (R208). -/
def execVadd (m : MReg) (d : VReg) (a : VReg) (b : Src) (s : State) : Out :=
  .next (pushWord (.vadd m d a b) false s)

/-- VSUB (R208). -/
def execVsub (m : MReg) (d : VReg) (a : VReg) (b : Src) (s : State) : Out :=
  .next (pushWord (.vsub m d a b) false s)

/-- VMUL (R208). -/
def execVmul (m : MReg) (d : VReg) (a : VReg) (b : Src) (s : State) : Out :=
  .next (pushWord (.vmul m d a b) false s)

/-- VMULH (R208). -/
def execVmulh (m : MReg) (d : VReg) (a : VReg) (b : Src) (s : State) : Out :=
  .next (pushWord (.vmulh m d a b) false s)

/-- VMULHN (R208). -/
def execVmulhn (m : MReg) (d : VReg) (a : VReg) (b : Src) (s : State) : Out :=
  .next (pushWord (.vmulhn m d a b) false s)

/-- VMACC (R208). -/
def execVmacc (m : MReg) (d : VReg) (a : VReg) (b : Src) (s : State) : Out :=
  .next (pushWord (.vmacc m d a b) false s)

/-- VMIN (R208). -/
def execVmin (m : MReg) (d : VReg) (a : VReg) (b : Src) (s : State) : Out :=
  .next (pushWord (.vmin m d a b) false s)

/-- VMAX (R208). -/
def execVmax (m : MReg) (d : VReg) (a : VReg) (b : Src) (s : State) : Out :=
  .next (pushWord (.vmax m d a b) false s)

/-- VMINN (R208). -/
def execVminn (m : MReg) (d : VReg) (a : VReg) (b : Src) (s : State) : Out :=
  .next (pushWord (.vminn m d a b) false s)

/-- VMAXN (R208). -/
def execVmaxn (m : MReg) (d : VReg) (a : VReg) (b : Src) (s : State) : Out :=
  .next (pushWord (.vmaxn m d a b) false s)

/-- VAND (R209). -/
def execVand (m : MReg) (d : VReg) (a : VReg) (b : Src) (s : State) : Out :=
  .next (pushWord (.vand m d a b) false s)

/-- VOR (R209). -/
def execVor (m : MReg) (d : VReg) (a : VReg) (b : Src) (s : State) : Out :=
  .next (pushWord (.vor m d a b) false s)

/-- VXOR (R209). -/
def execVxor (m : MReg) (d : VReg) (a : VReg) (b : Src) (s : State) : Out :=
  .next (pushWord (.vxor m d a b) false s)

/-- VSHL (R208). -/
def execVshl (m : MReg) (d : VReg) (a : VReg) (b : Src) (s : State) : Out :=
  .next (pushWord (.vshl m d a b) false s)

/-- VSHR (R208). -/
def execVshr (m : MReg) (d : VReg) (a : VReg) (b : Src) (s : State) : Out :=
  .next (pushWord (.vshr m d a b) false s)

/-- VSAR (R208). -/
def execVsar (m : MReg) (d : VReg) (a : VReg) (b : Src) (s : State) : Out :=
  .next (pushWord (.vsar m d a b) false s)

/-- VADDS (R208). -/
def execVadds (m : MReg) (d : VReg) (a : VReg) (b : Src) (s : State) : Out :=
  .next (pushWord (.vadds m d a b) false s)

/-- VSUBS (R208). -/
def execVsubs (m : MReg) (d : VReg) (a : VReg) (b : Src) (s : State) : Out :=
  .next (pushWord (.vsubs m d a b) false s)

/-- VSEQ (R211). -/
def execVseq (m : MReg) (d : MReg) (a : VReg) (b : Src) (s : State) : Out :=
  .next (pushWord (.vseq m d a b) false s)

/-- VSNE (R211). -/
def execVsne (m : MReg) (d : MReg) (a : VReg) (b : Src) (s : State) : Out :=
  .next (pushWord (.vsne m d a b) false s)

/-- VSLT (R211). -/
def execVslt (m : MReg) (d : MReg) (a : VReg) (b : Src) (s : State) : Out :=
  .next (pushWord (.vslt m d a b) false s)

/-- VSLE (R211). -/
def execVsle (m : MReg) (d : MReg) (a : VReg) (b : Src) (s : State) : Out :=
  .next (pushWord (.vsle m d a b) false s)

/-- VSLTN (R211). -/
def execVsltn (m : MReg) (d : MReg) (a : VReg) (b : Src) (s : State) : Out :=
  .next (pushWord (.vsltn m d a b) false s)

/-- VSLEN (R211). -/
def execVslen (m : MReg) (d : MReg) (a : VReg) (b : Src) (s : State) : Out :=
  .next (pushWord (.vslen m d a b) false s)

/-- VFADD (R210). -/
def execVfadd (m : MReg) (d : VReg) (a : VReg) (b : Src) (s : State) : Out :=
  .next (pushWord (.vfadd m d a b) false s)

/-- VFSUB (R210). -/
def execVfsub (m : MReg) (d : VReg) (a : VReg) (b : Src) (s : State) : Out :=
  .next (pushWord (.vfsub m d a b) false s)

/-- VFMUL (R210). -/
def execVfmul (m : MReg) (d : VReg) (a : VReg) (b : Src) (s : State) : Out :=
  .next (pushWord (.vfmul m d a b) false s)

/-- VFMA (R210). -/
def execVfma (m : MReg) (d : VReg) (a : VReg) (b : Src) (s : State) : Out :=
  .next (pushWord (.vfma m d a b) false s)

/-- VFMS (R210). -/
def execVfms (m : MReg) (d : VReg) (a : VReg) (b : Src) (s : State) : Out :=
  .next (pushWord (.vfms m d a b) false s)

/-- VFDIV (R210). -/
def execVfdiv (m : MReg) (d : VReg) (a : VReg) (b : Src) (s : State) : Out :=
  .next (pushWord (.vfdiv m d a b) false s)

/-- VFMIN (R210). -/
def execVfmin (m : MReg) (d : VReg) (a : VReg) (b : Src) (s : State) : Out :=
  .next (pushWord (.vfmin m d a b) false s)

/-- VFMAX (R210). -/
def execVfmax (m : MReg) (d : VReg) (a : VReg) (b : Src) (s : State) : Out :=
  .next (pushWord (.vfmax m d a b) false s)

/-- VFSEQ (R212). -/
def execVfseq (m : MReg) (d : MReg) (a : VReg) (b : Src) (s : State) : Out :=
  .next (pushWord (.vfseq m d a b) false s)

/-- VFSLT (R212). -/
def execVfslt (m : MReg) (d : MReg) (a : VReg) (b : Src) (s : State) : Out :=
  .next (pushWord (.vfslt m d a b) false s)

/-- VFSLE (R212). -/
def execVfsle (m : MReg) (d : MReg) (a : VReg) (b : Src) (s : State) : Out :=
  .next (pushWord (.vfsle m d a b) false s)

/-- VMERGE (R213). -/
def execVmerge (m : MReg) (d : VReg) (a : VReg) (b : Src) (s : State) : Out :=
  .next (pushWord (.vmerge m d a b) false s)

/-- VSLIDEUP (R214). -/
def execVslideup (m : MReg) (d : VReg) (a : VReg) (b : Src) (s : State) : Out :=
  .next (pushWord (.vslideup m d a b) false s)

/-- VSLIDEDN (R214). -/
def execVslidedn (m : MReg) (d : VReg) (a : VReg) (b : Src) (s : State) : Out :=
  .next (pushWord (.vslidedn m d a b) false s)

/-- VPERM (R215). -/
def execVperm (m : MReg) (d : VReg) (a : VReg) (b : VReg) (s : State) : Out :=
  .next (pushWord (.vperm m d a b) false s)

/-- VXCH (R216). -/
def execVxch (m : MReg) (d : VReg) (a : VReg) (b : Src) (s : State) : Out :=
  .next (pushWord (.vxch m d a b) false s)

/-- VMOV (R217). -/
def execVmov (m : MReg) (d : VReg) (a : VReg) (s : State) : Out :=
  .next (pushWord (.vmov m d a) false s)

/-- VNEG (R217). -/
def execVneg (m : MReg) (d : VReg) (a : VReg) (s : State) : Out :=
  .next (pushWord (.vneg m d a) false s)

/-- VABS (R217). -/
def execVabs (m : MReg) (d : VReg) (a : VReg) (s : State) : Out :=
  .next (pushWord (.vabs m d a) false s)

/-- VNOT (R217). -/
def execVnot (m : MReg) (d : VReg) (a : VReg) (s : State) : Out :=
  .next (pushWord (.vnot m d a) false s)

/-- VCLZ (R217). -/
def execVclz (m : MReg) (d : VReg) (a : VReg) (s : State) : Out :=
  .next (pushWord (.vclz m d a) false s)

/-- VPOPCE (R217). -/
def execVpopce (m : MReg) (d : VReg) (a : VReg) (s : State) : Out :=
  .next (pushWord (.vpopce m d a) false s)

/-- VIOTA (R218). -/
def execViota (m : MReg) (d : VReg) (s : State) : Out :=
  .next (pushWord (.viota m d) false s)

/-- VTAG (R219). -/
def execVtag (d : VReg) (a : VReg) (t : Tag) (s : State) : Out :=
  .next (pushWord (.vtag d a t) false s)

/-- VFNEG (R220). -/
def execVfneg (m : MReg) (d : VReg) (a : VReg) (s : State) : Out :=
  .next (pushWord (.vfneg m d a) false s)

/-- VFABS (R220). -/
def execVfabs (m : MReg) (d : VReg) (a : VReg) (s : State) : Out :=
  .next (pushWord (.vfabs m d a) false s)

/-- VFSQRT (R220). -/
def execVfsqrt (m : MReg) (d : VReg) (a : VReg) (s : State) : Out :=
  .next (pushWord (.vfsqrt m d a) false s)

/-- VFRCP (R220). -/
def execVfrcp (m : MReg) (d : VReg) (a : VReg) (s : State) : Out :=
  .next (pushWord (.vfrcp m d a) false s)

/-- VFRSQ (R220). -/
def execVfrsq (m : MReg) (d : VReg) (a : VReg) (s : State) : Out :=
  .next (pushWord (.vfrsq m d a) false s)

/-- VFEXP2 (R220). -/
def execVfexp2 (m : MReg) (d : VReg) (a : VReg) (s : State) : Out :=
  .next (pushWord (.vfexp2 m d a) false s)

/-- VFCLASS (R221). -/
def execVfclass (m : MReg) (d : VReg) (a : VReg) (s : State) : Out :=
  .next (pushWord (.vfclass m d a) false s)

/-- VCVT (R223). -/
def execVcvt (m : MReg) (d : VReg) (a : VReg) (t : Tag) (p : BitVec 2) (e : Bool) (s : State) : Out :=
  .next (pushWord (.vcvt m d a t p e) false s)

/-- VREDSUM (R225). -/
def execVredsum (m : MReg) (d : SReg) (a : VReg) (s : State) : Out :=
  .next (pushWord (.vredsum m d a) false s)

/-- VREDMAX (R225). -/
def execVredmax (m : MReg) (d : SReg) (a : VReg) (s : State) : Out :=
  .next (pushWord (.vredmax m d a) false s)

/-- VREDMIN (R225). -/
def execVredmin (m : MReg) (d : SReg) (a : VReg) (s : State) : Out :=
  .next (pushWord (.vredmin m d a) false s)

/-- VREDMAXN (R225). -/
def execVredmaxn (m : MReg) (d : SReg) (a : VReg) (s : State) : Out :=
  .next (pushWord (.vredmaxn m d a) false s)

/-- VREDMINN (R225). -/
def execVredminn (m : MReg) (d : SReg) (a : VReg) (s : State) : Out :=
  .next (pushWord (.vredminn m d a) false s)

/-- VREDFSUM (R226). -/
def execVredfsum (m : MReg) (d : SReg) (a : VReg) (s : State) : Out :=
  .next (pushWord (.vredfsum m d a) false s)

/-- VREDFMAX (R226). -/
def execVredfmax (m : MReg) (d : SReg) (a : VReg) (s : State) : Out :=
  .next (pushWord (.vredfmax m d a) false s)

/-- VREDFMIN (R226). -/
def execVredfmin (m : MReg) (d : SReg) (a : VReg) (s : State) : Out :=
  .next (pushWord (.vredfmin m d a) false s)

/-- VPOPC (R227). -/
def execVpopc (m : MReg) (d : SReg) (a : MReg) (s : State) : Out :=
  .next (pushWord (.vpopc m d a) false s)

/-- VFIRST (R227). -/
def execVfirst (m : MReg) (d : SReg) (a : MReg) (s : State) : Out :=
  .next (pushWord (.vfirst m d a) false s)

/-- MAND (R228). -/
def execMand (m : MReg) (d : MReg) (a : MReg) (b : MReg) (s : State) : Out :=
  .next (pushWord (.mand m d a b) false s)

/-- MOR (R228). -/
def execMor (m : MReg) (d : MReg) (a : MReg) (b : MReg) (s : State) : Out :=
  .next (pushWord (.mor m d a b) false s)

/-- MXOR (R228). -/
def execMxor (m : MReg) (d : MReg) (a : MReg) (b : MReg) (s : State) : Out :=
  .next (pushWord (.mxor m d a b) false s)

/-- MANDN (R228). -/
def execMandn (m : MReg) (d : MReg) (a : MReg) (b : MReg) (s : State) : Out :=
  .next (pushWord (.mandn m d a b) false s)

/-- MNOT (R228). -/
def execMnot (m : MReg) (d : MReg) (a : MReg) (s : State) : Out :=
  .next (pushWord (.mnot m d a) false s)

/-- MSET (R228). -/
def execMset (m : MReg) (d : MReg) (s : State) : Out :=
  .next (pushWord (.mset m d) false s)

/-- MCLR (R228). -/
def execMclr (m : MReg) (d : MReg) (s : State) : Out :=
  .next (pushWord (.mclr m d) false s)

/-- MMOV (R228). -/
def execMmov (m : MReg) (d : MReg) (a : MReg) (s : State) : Out :=
  .next (pushWord (.mmov m d a) false s)

/-- VSPLAT (R229). -/
def execVsplat (m : MReg) (d : VReg) (a : SReg) (s : State) : Out :=
  .next (pushWord (.vsplat m d a) false s)

/-- VMOVS (R230). -/
def execVmovs (m : MReg) (d : SReg) (a : VReg) (s : State) : Out :=
  .next (pushWord (.vmovs m d a) false s)

/-- VINS (R229). -/
def execVins (m : MReg) (d : VReg) (a : SReg) (s : State) : Out :=
  .next (pushWord (.vins m d a) false s)

/-- VLD (R235). -/
def execVld (m : MReg) (v : VReg) (a : SReg) (b : SReg) (t : LoadType) (u : Bool) (s : State) : Out :=
  .next (pushWord (.vld m v a b t u) false s)

/-- VST (R236). -/
def execVst (m : MReg) (v : VReg) (a : SReg) (b : SReg) (u : Bool) (s : State) : Out :=
  .next (pushWord (.vst m v a b u) false s)

/-- VLDX (R238). -/
def execVldx (m : MReg) (v : VReg) (a : SReg) (b : VReg) (t : LoadType) (s : State) : Out :=
  .next (pushWord (.vldx m v a b t) false s)

/-- VSTX (R238). -/
def execVstx (m : MReg) (v : VReg) (a : SReg) (b : VReg) (s : State) : Out :=
  .next (pushWord (.vstx m v a b) false s)

/-- VLDB (R239). -/
def execVldb (m : MReg) (v : VReg) (a : SReg) (b : VReg) (t : LoadType) (s : State) : Out :=
  .next (pushWord (.vldb m v a b t) false s)

/-- VREDM (R240). -/
def execVredm (m : MReg) (v : VReg) (a : SReg) (b : VReg) (o : RedOp) (s : State) : Out :=
  .next (pushWord (.vredm m v a b o) false s)

end Sys2Proof.Machine
end

