-- ==== Sys2Proof/Machine/Dispatch.lean ====
section
/-! DEFINITION. One arm for each row of spec/opcode_table.json, in the table's order: the meaning of an instruction word, or of a
step that has no word, done by the strand whose turn it is. -/

namespace Sys2Proof.Machine

/-- What an instruction does. -/
def exec (i : Instr) (s : State) : Host.Outcome State Fault Refusal :=
  match i with
  | .vadd m d a b => Sys2Proof.Machine.execVadd m d a b s
  | .vsub m d a b => Sys2Proof.Machine.execVsub m d a b s
  | .vmul m d a b => Sys2Proof.Machine.execVmul m d a b s
  | .vmulh m d a b => Sys2Proof.Machine.execVmulh m d a b s
  | .vmulhn m d a b => Sys2Proof.Machine.execVmulhn m d a b s
  | .vmacc m d a b => Sys2Proof.Machine.execVmacc m d a b s
  | .vmin m d a b => Sys2Proof.Machine.execVmin m d a b s
  | .vmax m d a b => Sys2Proof.Machine.execVmax m d a b s
  | .vminn m d a b => Sys2Proof.Machine.execVminn m d a b s
  | .vmaxn m d a b => Sys2Proof.Machine.execVmaxn m d a b s
  | .vand m d a b => Sys2Proof.Machine.execVand m d a b s
  | .vor m d a b => Sys2Proof.Machine.execVor m d a b s
  | .vxor m d a b => Sys2Proof.Machine.execVxor m d a b s
  | .vshl m d a b => Sys2Proof.Machine.execVshl m d a b s
  | .vshr m d a b => Sys2Proof.Machine.execVshr m d a b s
  | .vsar m d a b => Sys2Proof.Machine.execVsar m d a b s
  | .vadds m d a b => Sys2Proof.Machine.execVadds m d a b s
  | .vsubs m d a b => Sys2Proof.Machine.execVsubs m d a b s
  | .vseq m d a b => Sys2Proof.Machine.execVseq m d a b s
  | .vsne m d a b => Sys2Proof.Machine.execVsne m d a b s
  | .vslt m d a b => Sys2Proof.Machine.execVslt m d a b s
  | .vsle m d a b => Sys2Proof.Machine.execVsle m d a b s
  | .vsltn m d a b => Sys2Proof.Machine.execVsltn m d a b s
  | .vslen m d a b => Sys2Proof.Machine.execVslen m d a b s
  | .vfadd m d a b => Sys2Proof.Machine.execVfadd m d a b s
  | .vfsub m d a b => Sys2Proof.Machine.execVfsub m d a b s
  | .vfmul m d a b => Sys2Proof.Machine.execVfmul m d a b s
  | .vfma m d a b => Sys2Proof.Machine.execVfma m d a b s
  | .vfms m d a b => Sys2Proof.Machine.execVfms m d a b s
  | .vfdiv m d a b => Sys2Proof.Machine.execVfdiv m d a b s
  | .vfmin m d a b => Sys2Proof.Machine.execVfmin m d a b s
  | .vfmax m d a b => Sys2Proof.Machine.execVfmax m d a b s
  | .vfseq m d a b => Sys2Proof.Machine.execVfseq m d a b s
  | .vfslt m d a b => Sys2Proof.Machine.execVfslt m d a b s
  | .vfsle m d a b => Sys2Proof.Machine.execVfsle m d a b s
  | .vmerge m d a b => Sys2Proof.Machine.execVmerge m d a b s
  | .vslideup m d a b => Sys2Proof.Machine.execVslideup m d a b s
  | .vslidedn m d a b => Sys2Proof.Machine.execVslidedn m d a b s
  | .vperm m d a b => Sys2Proof.Machine.execVperm m d a b s
  | .vxch m d a b => Sys2Proof.Machine.execVxch m d a b s
  | .vmov m d a => Sys2Proof.Machine.execVmov m d a s
  | .vneg m d a => Sys2Proof.Machine.execVneg m d a s
  | .vabs m d a => Sys2Proof.Machine.execVabs m d a s
  | .vnot m d a => Sys2Proof.Machine.execVnot m d a s
  | .vclz m d a => Sys2Proof.Machine.execVclz m d a s
  | .vpopce m d a => Sys2Proof.Machine.execVpopce m d a s
  | .viota m d => Sys2Proof.Machine.execViota m d s
  | .vtag d a t => Sys2Proof.Machine.execVtag d a t s
  | .vfneg m d a => Sys2Proof.Machine.execVfneg m d a s
  | .vfabs m d a => Sys2Proof.Machine.execVfabs m d a s
  | .vfsqrt m d a => Sys2Proof.Machine.execVfsqrt m d a s
  | .vfrcp m d a => Sys2Proof.Machine.execVfrcp m d a s
  | .vfrsq m d a => Sys2Proof.Machine.execVfrsq m d a s
  | .vfexp2 m d a => Sys2Proof.Machine.execVfexp2 m d a s
  | .vfclass m d a => Sys2Proof.Machine.execVfclass m d a s
  | .vcvt m d a t p e => Sys2Proof.Machine.execVcvt m d a t p e s
  | .vredsum m d a => Sys2Proof.Machine.execVredsum m d a s
  | .vredmax m d a => Sys2Proof.Machine.execVredmax m d a s
  | .vredmin m d a => Sys2Proof.Machine.execVredmin m d a s
  | .vredmaxn m d a => Sys2Proof.Machine.execVredmaxn m d a s
  | .vredminn m d a => Sys2Proof.Machine.execVredminn m d a s
  | .vredfsum m d a => Sys2Proof.Machine.execVredfsum m d a s
  | .vredfmax m d a => Sys2Proof.Machine.execVredfmax m d a s
  | .vredfmin m d a => Sys2Proof.Machine.execVredfmin m d a s
  | .vpopc m d a => Sys2Proof.Machine.execVpopc m d a s
  | .vfirst m d a => Sys2Proof.Machine.execVfirst m d a s
  | .mand m d a b => Sys2Proof.Machine.execMand m d a b s
  | .mor m d a b => Sys2Proof.Machine.execMor m d a b s
  | .mxor m d a b => Sys2Proof.Machine.execMxor m d a b s
  | .mandn m d a b => Sys2Proof.Machine.execMandn m d a b s
  | .mnot m d a => Sys2Proof.Machine.execMnot m d a s
  | .mset m d => Sys2Proof.Machine.execMset m d s
  | .mclr m d => Sys2Proof.Machine.execMclr m d s
  | .mmov m d a => Sys2Proof.Machine.execMmov m d a s
  | .vsplat m d a => Sys2Proof.Machine.execVsplat m d a s
  | .vmovs m d a => Sys2Proof.Machine.execVmovs m d a s
  | .vins m d a => Sys2Proof.Machine.execVins m d a s
  | .vld m v a b t u => Sys2Proof.Machine.execVld m v a b t u s
  | .vst m v a b u => Sys2Proof.Machine.execVst m v a b u s
  | .vldx m v a b t => Sys2Proof.Machine.execVldx m v a b t s
  | .vstx m v a b => Sys2Proof.Machine.execVstx m v a b s
  | .vldb m v a b t => Sys2Proof.Machine.execVldb m v a b t s
  | .vredm m v a b o => Sys2Proof.Machine.execVredm m v a b o s
  | .mrow d a b => Sys2Proof.Machine.execMrow d a b s
  | .mrows sc t a b => Sys2Proof.Machine.execMrows sc t a b s
  | .mdrain d a e t => Sys2Proof.Machine.execMdrain d a e t s
  | .mzero a b => Sys2Proof.Machine.execMzero a b s
  | .twrow d a b => Sys2Proof.Machine.execTwrow d a b s
  | .trcol d a b => Sys2Proof.Machine.execTrcol d a b s
  | .tlds d a => Sys2Proof.Machine.execTlds d a s
  | .tldm d a b => Sys2Proof.Machine.execTldm d a b s
  | .tset d t b => Sys2Proof.Machine.execTset d t b s
  | .tcopy d a b => Sys2Proof.Machine.execTcopy d a b s
  | .sbind d a t n => Sys2Proof.Machine.execSbind d a t n s
  | .sfree n => Sys2Proof.Machine.execSfree n s
  | .happend a b => Sys2Proof.Machine.execHappend a b s
  | .hloade d a b => Sys2Proof.Machine.execHloade d a b s
  | .hloadr d a b => Sys2Proof.Machine.execHloadr d a b s
  | .hsync a => Sys2Proof.Machine.execHsync a s
  | .vapp d a b => Sys2Proof.Machine.execVapp d a b s
  | .vpropose d a b => Sys2Proof.Machine.execVpropose d a b s
  | .vwaitall d a b => Sys2Proof.Machine.execVwaitall d a b s
  | .vwaitany d a b => Sys2Proof.Machine.execVwaitany d a b s
  | .vtopk d a b => Sys2Proof.Machine.execVtopk d a b s
  | .add d a b => Sys2Proof.Machine.execAdd d a b s
  | .sub d a b => Sys2Proof.Machine.execSub d a b s
  | .and d a b => Sys2Proof.Machine.execAnd d a b s
  | .or d a b => Sys2Proof.Machine.execOr d a b s
  | .xor d a b => Sys2Proof.Machine.execXor d a b s
  | .andn d a b => Sys2Proof.Machine.execAndn d a b s
  | .shl d a b => Sys2Proof.Machine.execShl d a b s
  | .shr d a b => Sys2Proof.Machine.execShr d a b s
  | .sar d a b => Sys2Proof.Machine.execSar d a b s
  | .slt d a b => Sys2Proof.Machine.execSlt d a b s
  | .sltn d a b => Sys2Proof.Machine.execSltn d a b s
  | .min d a b => Sys2Proof.Machine.execMin d a b s
  | .max d a b => Sys2Proof.Machine.execMax d a b s
  | .minn d a b => Sys2Proof.Machine.execMinn d a b s
  | .maxn d a b => Sys2Proof.Machine.execMaxn d a b s
  | .mul d a b => Sys2Proof.Machine.execMul d a b s
  | .mulh d a b => Sys2Proof.Machine.execMulh d a b s
  | .mulhn d a b => Sys2Proof.Machine.execMulhn d a b s
  | .div d a b => Sys2Proof.Machine.execDiv d a b s
  | .divn d a b => Sys2Proof.Machine.execDivn d a b s
  | .rem d a b => Sys2Proof.Machine.execRem d a b s
  | .remn d a b => Sys2Proof.Machine.execRemn d a b s
  | .clz d a => Sys2Proof.Machine.execClz d a s
  | .ctz d a => Sys2Proof.Machine.execCtz d a s
  | .popc d a => Sys2Proof.Machine.execPopc d a s
  | .sextb d a => Sys2Proof.Machine.execSextb d a s
  | .sexth d a => Sys2Proof.Machine.execSexth d a s
  | .sextw d a => Sys2Proof.Machine.execSextw d a s
  | .jr a => Sys2Proof.Machine.execJr a s
  | .callr a => Sys2Proof.Machine.execCallr a s
  | .addi d a imm => Sys2Proof.Machine.execAddi d a imm s
  | .andi d a imm => Sys2Proof.Machine.execAndi d a imm s
  | .ori d a imm => Sys2Proof.Machine.execOri d a imm s
  | .xori d a imm => Sys2Proof.Machine.execXori d a imm s
  | .slti d a imm => Sys2Proof.Machine.execSlti d a imm s
  | .sltin d a imm => Sys2Proof.Machine.execSltin d a imm s
  | .shli d a c => Sys2Proof.Machine.execShli d a c s
  | .shri d a c => Sys2Proof.Machine.execShri d a c s
  | .sari d a c => Sys2Proof.Machine.execSari d a c s
  | .lui d imm => Sys2Proof.Machine.execLui d imm s
  | .addpc d imm => Sys2Proof.Machine.execAddpc d imm s
  | .beq a b o => Sys2Proof.Machine.execBeq a b o s
  | .bne a b o => Sys2Proof.Machine.execBne a b o s
  | .blt a b o => Sys2Proof.Machine.execBlt a b o s
  | .bge a b o => Sys2Proof.Machine.execBge a b o s
  | .bltn a b o => Sys2Proof.Machine.execBltn a b o s
  | .bgen a b o => Sys2Proof.Machine.execBgen a b o s
  | .bbs a b o => Sys2Proof.Machine.execBbs a b o s
  | .bbc a b o => Sys2Proof.Machine.execBbc a b o s
  | .j o => Sys2Proof.Machine.execJ o s
  | .call o => Sys2Proof.Machine.execCall o s
  | .ldb d a r imm => Sys2Proof.Machine.execLdb d a r imm s
  | .ldh d a r imm => Sys2Proof.Machine.execLdh d a r imm s
  | .ldw d a r imm => Sys2Proof.Machine.execLdw d a r imm s
  | .ldd d a r imm => Sys2Proof.Machine.execLdd d a r imm s
  | .ldbn d a r imm => Sys2Proof.Machine.execLdbn d a r imm s
  | .ldhn d a r imm => Sys2Proof.Machine.execLdhn d a r imm s
  | .ldwn d a r imm => Sys2Proof.Machine.execLdwn d a r imm s
  | .stb d a r imm => Sys2Proof.Machine.execStb d a r imm s
  | .sth d a r imm => Sys2Proof.Machine.execSth d a r imm s
  | .stw d a r imm => Sys2Proof.Machine.execStw d a r imm s
  | .std d a r imm => Sys2Proof.Machine.execStd d a r imm s
  | .strip c n sc o => Sys2Proof.Machine.execStrip c n sc o s
  | .amoswap d a b o sc => Sys2Proof.Machine.execAmoswap d a b o sc s
  | .amoadd d a b o sc => Sys2Proof.Machine.execAmoadd d a b o sc s
  | .amoand d a b o sc => Sys2Proof.Machine.execAmoand d a b o sc s
  | .amoor d a b o sc => Sys2Proof.Machine.execAmoor d a b o sc s
  | .amomax d a b o sc => Sys2Proof.Machine.execAmomax d a b o sc s
  | .amomin d a b o sc => Sys2Proof.Machine.execAmomin d a b o sc s
  | .amomaxn d a b o sc => Sys2Proof.Machine.execAmomaxn d a b o sc s
  | .amocas d a b o sc => Sys2Proof.Machine.execAmocas d a b o sc s
  | .ldo d a o sc => Sys2Proof.Machine.execLdo d a o sc s
  | .sto a b o sc => Sys2Proof.Machine.execSto a b o sc s
  | .ldow d a o sc => Sys2Proof.Machine.execLdow d a o sc s
  | .stow a b o sc => Sys2Proof.Machine.execStow a b o sc s
  | .fence o sc => Sys2Proof.Machine.execFence o sc s
  | .vdrain sc => Sys2Proof.Machine.execVdrain sc s
  | .propose d a b sc => Sys2Proof.Machine.execPropose d a b sc s
  | .oread d a sc => Sys2Proof.Machine.execOread d a sc s
  | .nop => Sys2Proof.Machine.execNop s
  | .yieldTurn => Sys2Proof.Machine.execYieldTurn s
  | .exit => Sys2Proof.Machine.execExit s
  | .trap code => Sys2Proof.Machine.execTrap code s
  | .brk => Sys2Proof.Machine.execBrk s
  | .gate index => Sys2Proof.Machine.execGate index s
  | .gret => Sys2Proof.Machine.execGret s
  | .clk d => Sys2Proof.Machine.execClk d s
  | .waituntil a => Sys2Proof.Machine.execWaituntil a s
  | .setvl d a w => Sys2Proof.Machine.execSetvl d a w s
  | .window a => Sys2Proof.Machine.execWindow a s
  | .valloc a => Sys2Proof.Machine.execValloc a s
  | .vshrink a => Sys2Proof.Machine.execVshrink a s
  | .mfc d n => Sys2Proof.Machine.execMfc d n s
  | .mtc d n => Sys2Proof.Machine.execMtc d n s
  | .app d a b => Sys2Proof.Machine.execApp d a b s
  | .appat d a b => Sys2Proof.Machine.execAppat d a b s
  | .sealPage a => Sys2Proof.Machine.execSealPage a s
  | .oclear a => Sys2Proof.Machine.execOclear a s
  | .appmark d a => Sys2Proof.Machine.execAppmark d a s
  | .abinit a b => Sys2Proof.Machine.execAbinit a b s
  | .abexpect a b => Sys2Proof.Machine.execAbexpect a b s
  | .abarrive a => Sys2Proof.Machine.execAbarrive a s
  | .abwait a b => Sys2Proof.Machine.execAbwait a b s
  | .abtest d a => Sys2Proof.Machine.execAbtest d a s
  | .srread d a => Sys2Proof.Machine.execSrread d a s
  | .srtas d a b => Sys2Proof.Machine.execSrtas d a b s
  | .srfadd d a b => Sys2Proof.Machine.execSrfadd d a b s
  | .srwait d a b => Sys2Proof.Machine.execSrwait d a b s
  | .cdrain a => Sys2Proof.Machine.execCdrain a s
  | .enq a b => Sys2Proof.Machine.execEnq a b s
  | .hstat d a => Sys2Proof.Machine.execHstat d a s
  | .eret => Sys2Proof.Machine.execEret s
  | .mfs d n => Sys2Proof.Machine.execMfs d n s
  | .mts d n => Sys2Proof.Machine.execMts d n s
  | .shoot d a b => Sys2Proof.Machine.execShoot d a b s
  | .tlbinv a b => Sys2Proof.Machine.execTlbinv a b s
  | .resume d a b => Sys2Proof.Machine.execResume d a b s
  | .halt d a => Sys2Proof.Machine.execHalt d a s
  | .frqpop d a => Sys2Proof.Machine.execFrqpop d a s
  | .powerGood ok => Sys2Proof.Machine.execPowerGood ok s
  | .diesUp ok => Sys2Proof.Machine.execDiesUp ok s
  | .ready ok entry => Sys2Proof.Machine.execReady ok entry s
  | .partitionCountSet n => Sys2Proof.Machine.execPartitionCountSet n s
  | .powerLimitSet watts => Sys2Proof.Machine.execPowerLimitSet watts s
  | .attestationRequest nonce => Sys2Proof.Machine.execAttestationRequest nonce s
  | .timeCorrection ns => Sys2Proof.Machine.execTimeCorrection ns s
  | .correctedSoftError unit => Sys2Proof.Machine.execCorrectedSoftError unit s
  | .uncorrectableRead pa => Sys2Proof.Machine.execUncorrectableRead pa s
  | .laneGroupSleep core group => Sys2Proof.Machine.execLaneGroupSleep core group s
  | .laneGroupWakeBatch core => Sys2Proof.Machine.execLaneGroupWakeBatch core s
  | .untrackedCopyDrop core line => Sys2Proof.Machine.execUntrackedCopyDrop core line s
  | .gatewayCopyDrop die line => Sys2Proof.Machine.execGatewayCopyDrop die line s
  | .remoteAccess r => Sys2Proof.Machine.execRemoteAccess r s
  | .widxWrite part queue value => Sys2Proof.Machine.execWidxWrite part queue value s
  | .queueStateWrite part queue value => Sys2Proof.Machine.execQueueStateWrite part queue value s
  | .taskHeadCheck part queue => Sys2Proof.Machine.execTaskHeadCheck part queue s
  | .dependenceEvaluation part queue => Sys2Proof.Machine.execDependenceEvaluation part queue s
  | .taskSelection part => Sys2Proof.Machine.execTaskSelection part s
  | .gangPlacement part => Sys2Proof.Machine.execGangPlacement part s
  | .gangStart gang => Sys2Proof.Machine.execGangStart gang s
  | .launchCompletion launch => Sys2Proof.Machine.execLaunchCompletion launch s
  | .stallRotation launch => Sys2Proof.Machine.execStallRotation launch s
  | .pdDeferralExpiry strand => Sys2Proof.Machine.execPdDeferralExpiry strand s
  | .faultRecordRetry part => Sys2Proof.Machine.execFaultRecordRetry part s
  | .flivenTrap k cause sub val => Sys2Proof.Machine.execFlivenTrap k cause sub val s
  | .flivenWatchdogReset k => Sys2Proof.Machine.execFlivenWatchdogReset k s
  | .waitTimeout strand => Sys2Proof.Machine.execWaitTimeout strand s
  | .copyChunkLanding core n => Sys2Proof.Machine.execCopyChunkLanding core n s
  | .copyChunkLost core n => Sys2Proof.Machine.execCopyChunkLost core n s
  | .channelCreditWait strand => Sys2Proof.Machine.execChannelCreditWait strand s
  | .tldmTileWrite core => Sys2Proof.Machine.execTldmTileWrite core s
  | .reductionMessage core n => Sys2Proof.Machine.execReductionMessage core n s
  | .streamRefill strand slot => Sys2Proof.Machine.execStreamRefill strand slot s
  | .streamRecordTake stream => Sys2Proof.Machine.execStreamRecordTake stream s
  | .courseMerge stream => Sys2Proof.Machine.execCourseMerge stream s
  | .courseExpiry stream => Sys2Proof.Machine.execCourseExpiry stream s
  | .appendReservationFill frame n => Sys2Proof.Machine.execAppendReservationFill frame n s
  | .shootdownAck page die => Sys2Proof.Machine.execShootdownAck page die s
  | .peerAckTimeout page peer => Sys2Proof.Machine.execPeerAckTimeout page peer s
  | .syncMirrorUpdate die => Sys2Proof.Machine.execSyncMirrorUpdate die s
  | .unallocatedEncoding w => Sys2Proof.Machine.execUnallocatedEncoding w s
  | .waituntilTimeReached strand => Sys2Proof.Machine.execWaituntilTimeReached strand s
  | .startTimeReached part queue => Sys2Proof.Machine.execStartTimeReached part queue s
  | .powerLoss => Sys2Proof.Machine.execPowerLoss s
  | .linkFailedMarkClear peer => Sys2Proof.Machine.execLinkFailedMarkClear peer s
  | .peerInvalidation peer page => Sys2Proof.Machine.execPeerInvalidation peer page s
  | .lineEviction core line => Sys2Proof.Machine.execLineEviction core line s

end Sys2Proof.Machine
end

