-- ==== Sys2Proof/Machine/Turn.lean ====
section
/-! DEFINITION. One turn: fetching a word (05 R67, 24 R333), the strand that decodes next (11 R197, 23 R330), the moves of the
other agents, the start (27 R359), and how a word is put where the next step fetches it. -/

namespace Sys2Proof.Machine

/-! Fetch. -/

/-- The four bytes of a word at a place: from the line that the core's instruction cache holds, else from memory. The line is an untracked
copy, which may be older than memory (01 R6, 16 R290; log entry 64). -/
def codeAt (s : State) (pa : Nat) : List Byte :=
  match (if s.me.fliven then none else Map.get? (s.core s.myCore).icache (lineOf pa)) with
  | some l => (l.data.drop (pa % 128)).take 4
  | none => s.mem.read pa 4

/-- The word at the PC of the strand whose turn it is (R67 R333; 10 R156). The buffers are filled by its walk. -/
def fetchWord (s : State) : State × Except Trap Word32 :=
  let s := touch s s.agent s.me.pc
  match check s s.agent .fetch s.me.pc 4 4 with
  | .error t => (s, .error t)
  | .ok p => (s, .ok (BitVec.ofNat 32 (natOfBytes (codeAt s p.loc.pa))))

/-- A line enters an instruction cache; with the cache full its first line leaves (01 R6; log entry 64). -/
def codePut (line : Nat) (l : CacheLine) (m : Map CacheLine) : Map CacheLine :=
  Map.set (if (Map.get? m line).isSome || decide (m.length < Config.icacheLines) then m else m.drop 1) line l

/-- The core of a compute strand keeps the line of an address that the strand may fetch. -/
def codeFill (va : Word) (s : State) : State :=
  if s.me.fliven then s else
  match check s s.agent .fetch (va &&& ~~~(3 : Word)) 4 4 with
  | .error _ => s
  | .ok p => s.modCore s.myCore fun x => { x with
      icache := codePut (lineOf p.loc.pa)
        { own := false, dirty := 0, data := s.mem.readLong (lineOf p.loc.pa * 128) 1, time := s.now } x.icache }

/-- An instruction cache gives up a line. -/
def codeDrop (core line : Nat) (s : State) : State :=
  if (Map.get? (s.core core).icache line).isNone then s
  else s.modCore core fun x => { x with icache := Map.erase x.icache line }

/-- The strand has had its turn: those that let it go first owe it none (11 R197, 23 R330). -/
def served (s : State) : State :=
  let s := { s with others := s.others.map fun p => (p.1, { p.2 with owed := p.2.owed.filter (· != s.key) }) }
  if s.me.fliven then s else s.modCore s.myCore fun x => { x with lastServed := x.paired.getD (slotOfKey s.key), paired := none }

/-- The strand decodes one word, or goes on with the one that it waits at (11 R180), or waits to report a fault that it keeps (02 R14).
A fault of the fetch is precise at the word, with no word in its record. -/
def decodeTurn (s : State) : Out :=
  match s.me.wait.fault, s.me.wait.on_ with
  | some f, _ => .next (faultAt f (served s))
  | none, some i => exec i (served s)
  | none, none =>
  match fetchWord s with
  | (s, .error t) => .next (faultAt { word := 0, trap := t } (served s))
  | (s, .ok w) =>
    match decode w with
    | .ok i => exec i (served s)
    | .error _ => execUnallocatedEncoding w (served s)

/-- A strand is ready: it sleeps in no wait (02 R27). -/
def issues (s : State) (k : Nat) : Bool :=
  match s.strand? k with
  | some t => t.isReady
  | none => false

/-- A strand is ready, and no ready strand has its turn first by a YIELD (02 R27, 11 R197). -/
def takesTurn (s : State) (k : Nat) : Bool :=
  match s.strand? k with
  | some t => t.isReady && !t.owed.any (issues s)
  | none => false

/-- The strands of the core that issue before this one: in ascending place after the one served last; all of them while this one
does not issue (02 R27, 23 R330). -/
def aheadInTurn (s : State) : List Nat :=
  if s.me.fliven then [] else
  let l := slotsAfter s.myCore (s.core s.myCore).lastServed
  (if s.me.status == .ready then l.takeWhile (· != s.key) else l).filter fun k => k != s.key && takesTurn s k

/-- The strands that go before this one: those it let go first, then those that the core's round-robin comes to first. -/
def owedReady (s : State) : List Nat := (s.me.owed.filter (issues s)) ++ aheadInTurn s

/-- A strand that sleeps on an entry decodes nothing; its lanes go on (13 R254, 14 R270; log entry 3). -/
def sleepTurn (s : State) : State :=
  let s := sleepOn (served s)
  if s.later then s else runQueue s

/-- The turn of the strand, or of the first strand that goes before it. -/
def turn (s : State) : Out :=
  match owedReady s with
  | [] => if s.me.status ≠ .ready then .next s else if s.me.sleepsInLanes then .next (sleepTurn s) else decodeTurn s
  | k :: _ =>
    match s.focus? k with
    | none => .next s
    | some s => decodeTurn s

/-- The strand and the one whose turn comes before its own issue in one cycle, and the strand has the lower number: the requests of the
two are handled in ascending number (02 R20, 23 R330). -/
def sharesCycle (s : State) : Bool :=
  match owedReady s with
  | [k] => s.me.isReady && !s.me.fliven && aheadInTurn s == [k] && decide (s.key < k) && (s.core s.myCore).paired.isNone
  | _ => false

/-- The strand decodes first of the two that issue in one cycle; the other one is next, and the round goes on behind both. -/
def cycleTurn (s : State) : Out :=
  if !sharesCycle s then turn s else
  match decodeTurn s with
  | .next t => .next (t.modCore s.myCore fun x => { x with
      lastServed := (s.core s.myCore).lastServed, paired := some (slotOfKey s.key) })
  | .fault f => .fault f
  | .refused r => .refused r

/-! The moves of the agenda. -/

/-- A step of the part that has no word. -/
def isPartStep (i : Instr) : Bool :=
  match i with
  | .unallocatedEncoding _ => false
  | _ => i.bits == 0xFFFFFFFF

/-- The n-th waiting access of the strand is performed, unless it comes after an earlier one: accesses to different locations are
performed in no fixed order (15 R275 R277 R279). -/
def performNth (n : Nat) (s : State) : State :=
  match s.me.ord.path[n]? with
  | none => s
  | some p =>
    if (s.me.ord.path.take n).any p.follows then s
    else performPath (s.modMe fun t => { t with ord := { t.ord with path := t.ord.path.eraseIdx n } }) s.agent [p]

/-- The n-th waiting vector store of a core is performed, unless an earlier one of its strand names some of its bytes (15 R275). -/
def storeNth (core n : Nat) (s : State) : State :=
  let l := (s.core core).stores
  match l[n]? with
  | none => s
  | some v =>
    if (l.take n).any fun w => w.strand == v.strand && w.loc.meets w.data.length v.loc v.data.length then s
    else performStore core (s.modCore core fun x => { x with stores := x.stores.eraseIdx n }) v

/-- A die gives up a replica line (24 R340). -/
def evictReplica (die line : Nat) (s : State) : State :=
  s.modDie die fun x => { x with replicas := x.replicas.filter (· != line) }

/-- The oldest entry of a translation buffer leaves (24 R336). -/
def evictEntry (core die : Nat) (isCore : Bool) (s : State) : State :=
  if isCore then s.modCore core fun x => { x with tlb := x.tlb.dropLast }
  else s.modDie die fun x => { x with tlb := x.tlb.dropLast }

/-- A strand does something in its turn. -/
def asTurn (s : State) (k : Nat) (f : State → Out) : Out :=
  match s.focus? k with
  | none => .fault (.noSuchStrand k)
  | some s => f s

/-- One move; `later` is set for it alone. -/
def move (m : Move) (s : State) : Out :=
  match m with
  | .decode k l => asTurn { s with later := l } k fun s => if s.stage = .ready then turn s else .next s
  | .cycle k l => asTurn { s with later := l } k fun s => if s.stage = .ready then cycleTurn s else .next s
  | .lanes k l => asTurn { s with later := l } k fun s =>
      .next (if s.me.status ≠ .ready then s else lanesTurn s)
  | .perform k n => asTurn s k fun s => .next (performNth n s)
  | .issued k n => asTurn { s with later := true } k fun s => .next (inRound (fun s => some (markIssued n s)) s)
  | .issue k i => asTurn { s with later := true } k fun s => .next (inRound (issueNth i) s)
  | .store c n => .next (storeNth c n s)
  | .event i l => if isPartStep i then exec i { s with later := l } else .fault .notAStep
  | .beginMerge k => .next (beginMergeAt s k)
  | .tlbEvict c d b => .next (evictEntry c d b s)
  | .replicaEvict d l => .next (evictReplica d l s)
  | .keepCell d i => .next (keepCell d i s)
  | .codeFill k va => asTurn s k fun s => .next (codeFill va s)
  | .codeDrop c l => .next (codeDrop c l s)
  | .advance ns => .next (passTime ns s)
  | .clock c n => .next (countClock c n s)

/-- The gangs that a request to stop waits for. -/
def stopsDue (s : State) : List Nat := (s.gangs.filter fun p => p.2.stopReq.isSome).map Prod.fst

/-- After every move the mark that it left work pending is taken away, and the requests to stop gangs that nothing holds off any
more go on: every strand is at a precise point (11 R181, 22 R307 R317). -/
def settled : Out → Out
  | .next s => .next ((stopsDue s).foldl heedStop { s with later := false })
  | .fault f => .fault f
  | .refused r => .refused r

/-- The next stage of a start that meets no failure (27 R359; log entry 10). -/
def bootStep (s : State) : Out :=
  match s.stage with
  | .off => execPowerGood true s
  | .safe => execDiesUp true s
  | .dies => execReady true s.fwEntry s
  | .ready => turn s
  | .failed => .next s

/-! A word where the next step fetches it (log entry 10). -/

/-- A word that Fliven strands do not decode (22 R304). -/
def needsCompute (i : Instr) : Bool :=
  let w := i.bits
  let op := w / 0x4000000
  let fn := w % 256
  decide (op < 0x2F) || op == 0x3B
    || (op == 0x3E && ((0x10 ≤ fn && fn ≤ 0x13) || fn == 0x05 || fn == 0x06 || (0x28 ≤ fn && fn ≤ 0x2C) || fn == 0x38 || fn == 0x3A
        || ((fn == 0x14 || fn == 0x15) && !flivenNumber (bitsOf w 19 8))))

/-- One strand of a task with the matrix state, placed and started as the dispatch unit does it, has the turn. -/
def seatOne (s : State) : State :=
  let t : TaskRec := { ngang := 1, nstr := 1, ncore := 1, floor := 1, regs := 10, flags := 4 }
  let lk := freshKey s.launches
  let g := freshKey s.gangs
  let l : Launch := { part := 0, queue := 0, index := 0, task := t, lstart := s.now }
  let s := (placeNew { s with launches := Map.set s.launches lk l } lk).1
  let s := startGang s g
  match s.gang? g with
  | none => s
  | some x => (s.focus? ((x.keys.head?).getD 0)).getD s

/-- A page is mapped at an address by four tables from TROOT on, in the frame behind them, readable, writable, executable. -/
def mapPage (s : State) (va : Nat) : State :=
  let root := bitsOf (s.part s.me.part).troot.toNat 51 11 * 0x800
  let slot := fun lv => root + 0x800 * (3 - lv) + 8 * bitsOf va (16 + 8 * lv + 7) (16 + 8 * lv)
  let ptr := fun lv => bytesOfNat 8 (root + 0x800 * (4 - lv) + 1)
  let leaf := bytesOfNat 8 ((root / 0x10000 + 1) * 0x10000 + 0x33)
  { s with mem := (((s.mem.write (slot 3) (ptr 3)).write (slot 2) (ptr 2)).write (slot 1) (ptr 1)).write (slot 0) leaf }

/-- Bytes placed in memory from outside. -/
def State.putBytes (s : State) (pa : Nat) (bs : List Byte) : State := { s with mem := s.mem.write pa bs }

/-- A word stored at the PC of the strand whose turn it is, of which its instruction cache holds no line. -/
def putCode (s : State) (w : Word32) : State :=
  let s := match check s s.agent .fetch s.me.pc 4 4 with
    | .ok _ => s
    | .error _ => mapPage s s.me.pc.toNat
  match check s s.agent .fetch s.me.pc 4 4 with
  | .ok p => (if s.me.fliven then s else codeDrop s.myCore (lineOf p.loc.pa) s).putBytes p.loc.pa (bytesOfWord w)
  | .error _ => s

end Sys2Proof.Machine
end

