-- ==== Sys2Proof/Machine/Step.lean ====
section
/-! DEFINITION. One step of the machine: the next move of the agenda, or with none listed the strand whose turn it is decodes
and the start goes on; and the placing of a word for the next step. -/

namespace Sys2Proof.Machine

/-- One step. -/
def step (s : State) : Host.Outcome State Fault Refusal :=
  match s.agenda with
  | m :: rest => settled (move m { s with agenda := rest })
  | [] => settled (bootStep s)

/-- The state whose next step fetches and runs the instruction with bits w: the part is READY, a strand that decodes the word
has the turn, and the word stands at its PC in a page that may be executed (log entry 10). -/
def State.withFetchWord (s : State) (nbits w : Nat) : State :=
  let x : Word32 := BitVec.ofNat 32 (w % 2 ^ nbits)
  let s := { s with stage := .ready, agenda := [], later := false }
  let s := match decode x with
    | .ok i => if needsCompute i then seatOne s else s
    | .error _ => s
  putCode s x

end Sys2Proof.Machine
end

