-- ==== Sys2Proof/Safety.lean ====
section
/-! DEFINITION. What counts as a safe run of the model: a state reached by steps alone, none of which faulted or was
refused. -/

namespace Sys2Proof

/-- The machine has come from one state to another by steps that all went on. -/
inductive Reaches : Machine.State → Machine.State → Prop where
  | here (s : Machine.State) : Reaches s s
  | step (s t u : Machine.State) : Reaches s t → Machine.step t = .next u → Reaches s u

/-- The machine goes on from a state: its next step neither faults nor is refused. -/
def Goes (s : Machine.State) : Prop := ∃ t, Machine.step s = .next t

/-- A property that every step keeps. -/
def Kept (inv : Machine.State → Prop) : Prop := ∀ s t, inv s → Machine.step s = .next t → inv t

/-- What every step keeps, every run keeps. -/
theorem Kept.reaches {inv : Machine.State → Prop} (h : Kept inv) {s t : Machine.State} (hs : inv s) (r : Reaches s t) :
    inv t := by
  induction r with
  | here => exact hs
  | step u v _ hu ih => exact h u v ih hu

end Sys2Proof
end

