-- ==== Sys2Proof/Certificates/Slice0/Obligations.lean ====
section
/-! DEFINITION. The statements about the model for the provers, and the vocabulary they share: when a strand has nothing
before it but its next word, what an entry finds in the lanes, and what it may change. -/

namespace Sys2Proof.Claim

open Sys2Proof.Machine

/-! The strand. -/

/-- The strand whose turn it is decodes: it is ready, nothing of it waits in the queue or in the memory order, and the work
of the engines is not left to the agenda (log entry 3). -/
structure Calm (s : State) : Prop where
  now : s.later = false
  ready : s.me.status = .ready
  queue : s.me.queue = []
  path : s.me.ord.path = []
  fence : s.me.ord.relFence = none

/-- No load of the strand waits to be performed (15 R277). -/
def NoLoads (s : State) : Prop := ∀ p ∈ s.me.ord.path, p.load = none

/-- No release of the strand waits to be performed (15 R279). -/
def NoReleases (s : State) : Prop := ∀ p ∈ s.me.ord.path, p.rel = none

/-- No gang has a request to stop it pending (22 R307): the step around an instruction then heeds none. -/
def Unasked (s : State) : Prop := ∀ g ∈ s.gangs, g.2.stopReq = none

/-- No vector store of the strand waits in its core and none of its reductions is on the way to a bank unit (02 R11, 05 R78). -/
def NothingSent (s : State) : Prop :=
  (∀ v ∈ (s.core s.myCore).stores, v.strand ≠ s.me.sid) ∧ ∀ c ∈ s.cores, ∀ r ∈ c.2.redMsgs, r.strand ≠ s.me.sid

/-- No queued entry and no waiting load will write one of the registers (02 R13, 15 R284). -/
def Free (s : State) (rs : List SReg) : Prop :=
  (∀ e ∈ entriesOf s.me.queue, ∀ r ∈ laneWrites e.instr, r = 0 ∨ r ∉ rs) ∧
  ∀ p ∈ s.me.ord.path, ∀ l, p.load = some l → l.reg = 0 ∨ l.reg ∉ rs

/-- The state with execution going on at an address and nothing else changed. -/
def goesTo (s : State) (pc : Word) : State := { s with me := { s.me with pc := pc, wait := {}, owed := [] } }

/-- The state with execution going on at the next word and nothing else changed. -/
def passed (s : State) : State := goesTo s (s.me.pc + 4)

/-! The lanes. -/

/-- The state in which the entry of a vector or engine word stands at the head of the queue, its sources popped: the word
passes the decode checks, meets an empty queue, its lane groups are awake, no interrupted entry is left, a unit of the core that
it needs comes to no entry of another strand first, and no refill of a popped position had failed (02 R9 R11 R13, 08 R139, 10 R171,
23 R329). -/
structure Enters (i : Instr) (mx : Bool) (s u : State) : Prop where
  calm : Calm s
  decodes : decodeTrap s i mx = none
  fresh : s.me.v.vstart = 0 ∧ s.me.v.vdone = 0 ∧ s.me.v.fppend = false
  awake : ∀ g ∈ s.me.v.groups, ∀ x, (s.core s.myCore).groups[g]? = some x → x.asleep = false
  unbound : bindingTrap s.me.v (entryFor s i) = none
  alone : ∀ n, sharedUnit (entryFor s i) = some n → aheadAtUnit s n = []
  popped : ∃ b, popAll (takenBy (sharedUnit (entryFor s i)) (pushEntry s (entryFor s i))) (entryFor s i) = .ready b u none

/-- The slot a register field names (03 R32). -/
def place (s : State) (r : VReg) : Nat := s.me.v.wb + r.toNat

/-- The register in it. -/
def reg (s : State) (r : VReg) : Slot := s.slot (place s r)

/-- Bit i of a mask register; m0 reads as 8,192 ones (03 R36). -/
def maskBit (s : State) (m : MReg) (i : Nat) : Bool :=
  decide (i < 8192) && (m == 0 || (s.me.v.masks[m.toNat]?.getD 0).getLsbD i)

/-- Element i is governed: below VL, with its bit of the mask set (02 R16). -/
def governs (s : State) (m : MReg) (i : Nat) : Bool := decide (i < s.me.v.vl) && maskBit s m i

/-- Element i of the second operand at a tag: a vector element, the low bits of a scalar, or the immediate (04 R62 R63). -/
def second (s u : State) (b : Src) (t : Tag) (i : Nat) : Nat :=
  match b with
  | .v r => (reg u r).elem t.width i
  | .s r => (s.rd r).toNat % 2 ^ t.width
  | .i imm => immElem t imm

/-- A vector second operand has the tag. -/
def secondTagged (u : State) (b : Src) (t : Tag) : Prop := ∀ r, b = .v r → (reg u r).tag = t

/-- VL elements of a width lie in the lane groups held (02 R23). -/
def fits (s : State) (w : Nat) : Prop := s.me.v.vl * w ≤ s.me.v.lg * 2048

/-- What one destination register holds afterwards, its sidecar apart: the tag, the new value of each written element reduced
modulo 2^w, the old bits of every other element that lies in the register; every other register is as it was. -/
def WroteData (u t : State) (d : VReg) (w : Nat) (tag : Tag) (at_ : Nat → Bool) (val : Nat → Int) : Prop :=
  (reg t d).tag = tag
  ∧ (∀ i, (i + 1) * w ≤ 32768 → (reg t d).elem w i = if at_ i then (val i % (2 ^ w : Nat)).toNat else (reg u d).elem w i)
  ∧ ∀ k, k ≠ place u d → t.slot k = u.slot k

/-- The same, with the sidecar of the destination as it was. -/
def Wrote (u t : State) (d : VReg) (w : Nat) (tag : Tag) (at_ : Nat → Bool) (val : Nat → Int) : Prop :=
  WroteData u t d w tag at_ val ∧ (reg t d).side = (reg u d).side

/-- What one mask register holds afterwards; a write to m0 is discarded, and every other mask is as it was (03 R36). -/
def WroteMask (u t : State) (d : MReg) (at_ : Nat → Bool) (val : Nat → Bool) : Prop :=
  ∀ q : MReg, ∀ i, maskBit t q i = if q = d ∧ q ≠ 0 ∧ at_ i = true ∧ i < 8192 then val i else maskBit u q i

/-- The entry has completed: the queue is empty, and of the state it found nothing changed but the vector registers, the
masks, the scalar registers, EFC and the flags, as far as the statement says. -/
def Frame (u t : State) : Prop :=
  t = { u with me := { u.me with
    regs := t.me.regs, fcsr := t.me.fcsr, efc := t.me.efc, queue := []
    v := { u.me.v with slots := t.me.v.slots, masks := t.me.v.masks } } }

/-- Of what `Frame` leaves open, only vector registers changed. -/
def onlySlots (u t : State) : Prop :=
  t.me.regs = u.me.regs ∧ t.me.fcsr = u.me.fcsr ∧ t.me.efc = u.me.efc ∧ t.me.v.masks = u.me.v.masks

/-- Only vector registers and flags changed. -/
def slotsAndFlags (u t : State) : Prop := t.me.regs = u.me.regs ∧ t.me.efc = u.me.efc ∧ t.me.v.masks = u.me.v.masks

/-- Only masks and flags changed. -/
def masksAndFlags (u t : State) : Prop := t.me.regs = u.me.regs ∧ t.me.efc = u.me.efc ∧ t.me.v.slots = u.me.v.slots

/-- Only one scalar register and flags changed. -/
def scalarAndFlags (u t : State) (d : SReg) : Prop :=
  t.me.efc = u.me.efc ∧ t.me.v.slots = u.me.v.slots ∧ t.me.v.masks = u.me.v.masks ∧ ∀ r, r ≠ d → t.rd r = u.rd r

/-- FCSR holds the flags it held and those, among bits 7 to 3, that some governed element raised; nothing else of it
changed (03 R42). -/
def raised (u t : State) (at_ : Nat → Bool) (fl : Nat → Nat) : Prop :=
  ∀ j, t.me.fcsr.getLsbD j = (u.me.fcsr.getLsbD j ||
    (decide (3 ≤ j ∧ j ≤ 7) && (List.range u.me.v.vl).any fun i => at_ i && (fl i).testBit j))

/-- No trap on a float flag is enabled, or FD holds them off (03 R42, 22 R307). -/
def noFpTraps (s : State) : Prop := s.me.fd = true ∨ bitsOf s.me.fcsr.toNat 12 8 = 0

end Sys2Proof.Claim

section

open Sys2Proof Sys2Proof.Machine Sys2Proof.Claim

/-! Vector arithmetic (12_ref_vector). -/

/-- The integer tags and the float tags of arithmetic (12 R208 R210). -/
def Sys2Proof.Claim.intTags : List Tag := [.i8, .i16, .i32, .n8, .n16, .n32]
def Sys2Proof.Claim.floatTags : List Tag := [.f32, .f16, .bf16]

/-- The tags of offsets (04 R64). -/
def Sys2Proof.Claim.offsetTags : List Tag := [.i32, .n32, .raw]

/-- The tags VREDM takes with an operation (R240). -/
def Sys2Proof.Claim.reducible (o : RedOp) (t : Tag) : Prop :=
  match o with
  | .fadd => t = .f32
  | .and | .or => t ∈ intTags ∨ t = .raw
  | .add | .max | .min | .maxn | .minn => t ∈ intTags

/-- An element as its tag's kind reads it, and the nearest number the tag can hold (12 R208). -/
def Sys2Proof.Claim.kindOf (t : Tag) (x : Int) : Int := if t ∈ [Tag.i8, .i16, .i32] then sx t.width x.toNat else x
def Sys2Proof.Claim.clamp (t : Tag) (x : Int) : Int :=
  if t ∈ [Tag.i8, .i16, .i32] then max (-2 ^ (t.width - 1)) (min (2 ^ (t.width - 1) - 1) x) else max 0 (min (2 ^ t.width - 1) x)

/-- The words of R208: the constructor, whether it reads the old destination, and the result from the tag, x, y and the
old destination element z, taken as unsigned numbers. -/
def Sys2Proof.Claim.integerRules : List ((MReg → VReg → VReg → Src → Instr) × Bool × (Tag → Int → Int → Int → Int)) :=
  [(.vadd, false, fun _ x y _ => x + y), (.vsub, false, fun _ x y _ => x - y), (.vmul, false, fun _ x y _ => x * y),
   (.vmulh, false, fun t x y _ => sx t.width x.toNat * sx t.width y.toNat / 2 ^ t.width),
   (.vmulhn, false, fun t x y _ => x * y / 2 ^ t.width),
   (.vmacc, true, fun _ x y z => z + x * y),
   (.vmin, false, fun t x y _ => min (sx t.width x.toNat) (sx t.width y.toNat)),
   (.vmax, false, fun t x y _ => max (sx t.width x.toNat) (sx t.width y.toNat)),
   (.vminn, false, fun _ x y _ => min x y), (.vmaxn, false, fun _ x y _ => max x y),
   (.vshl, false, fun t x y _ => x * 2 ^ (y.toNat % t.width)), (.vshr, false, fun t x y _ => x / 2 ^ (y.toNat % t.width)),
   (.vsar, false, fun t x y _ => sx t.width x.toNat / 2 ^ (y.toNat % t.width)),
   (.vadds, false, fun t x y _ => clamp t (kindOf t x + kindOf t y)),
   (.vsubs, false, fun t x y _ => clamp t (kindOf t x - kindOf t y))]

/-- R208: VADD, VSUB, VMUL, VMULH, VMULHN, VMACC, VMIN, VMAX, VMINN, VMAXN, VSHL, VSHR, VSAR, VADDS and VSUBS complete, write
the table's result to every governed element under tag(A), and change no flag and nothing else. -/
def Obligations.IntegerWordsCompute : Prop :=
  ∀ p ∈ integerRules, ∀ (m : MReg) (d a : VReg) (b : Src) (s u : State), Enters (p.1 m d a b) false s u →
    (reg u a).tag ∈ intTags → secondTagged u b (reg u a).tag → (p.2.1 = true → (reg u d).tag = (reg u a).tag) →
    fits u (reg u a).tag.width →
    ∃ t, exec (p.1 m d a b) s = .next t ∧ Frame u t ∧ onlySlots u t ∧
      Wrote u t d (reg u a).tag.width (reg u a).tag (governs u m) fun i =>
        p.2.2 (reg u a).tag ((reg u a).elem (reg u a).tag.width i) (second s u b (reg u a).tag i)
          ((reg u d).elem (reg u a).tag.width i)

/-- The tag under which a bitwise word works: that of A, or RAW where the tags of A and B differ (12 R209). -/
def Sys2Proof.Claim.bitwiseTag (u : State) (a : VReg) (b : Src) : Tag :=
  match b with
  | .v r => if (reg u r).tag = (reg u a).tag then (reg u a).tag else .raw
  | .s _ | .i _ => (reg u a).tag

def Sys2Proof.Claim.bitwiseRules : List ((MReg → VReg → VReg → Src → Instr) × (Nat → Nat → Nat)) :=
  [(.vand, (· &&& ·)), (.vor, (· ||| ·)), (.vxor, (· ^^^ ·))]

/-- R209: VAND, VOR and VXOR complete for every tag but E2M1 and combine the bits of every governed element; with differing
tags both registers are 32-bit elements and the result is RAW. -/
def Obligations.BitwiseWordsCompute : Prop :=
  ∀ p ∈ bitwiseRules, ∀ (m : MReg) (d a : VReg) (b : Src) (s u : State), Enters (p.1 m d a b) false s u →
    (reg u a).tag ≠ .e2m1 → (∀ r, b = .v r → (reg u r).tag ≠ .e2m1) →
    (∀ imm, b = .i imm → (reg u a).tag ≠ .raw ∧ (reg u a).tag ≠ .e8m0) → fits u (bitwiseTag u a b).width →
    ∃ t, exec (p.1 m d a b) s = .next t ∧ Frame u t ∧ onlySlots u t ∧
      Wrote u t d (bitwiseTag u a b).width (bitwiseTag u a b) (governs u m) fun i =>
        p.2 ((reg u a).elem (bitwiseTag u a b).width i) (second s u b (bitwiseTag u a b) i)

/-- The tests of R211. -/
def Sys2Proof.Claim.compareRules : List ((MReg → MReg → VReg → Src → Instr) × (Nat → Nat → Nat → Bool)) :=
  [(.vseq, fun _ x y => x == y), (.vsne, fun _ x y => x != y), (.vslt, fun w x y => decide (sx w x < sx w y)),
   (.vsle, fun w x y => decide (sx w x ≤ sx w y)), (.vsltn, fun _ x y => decide (x < y)),
   (.vslen, fun _ x y => decide (x ≤ y))]

/-- R211: VSEQ, VSNE, VSLT, VSLE, VSLTN and VSLEN complete, set the governed bits of mask D to the test, leave its other bits
and every register alone, and change no flag. -/
def Sys2Proof.Claim.IntegerComparesSetMasks : Prop :=
  ∀ p ∈ compareRules, ∀ (m d : MReg) (a : VReg) (b : Src) (s u : State), Enters (p.1 m d a b) false s u →
    (reg u a).tag ∈ intTags → secondTagged u b (reg u a).tag → fits u (reg u a).tag.width →
    ∃ t, exec (p.1 m d a b) s = .next t ∧ Frame u t ∧ masksAndFlags u t ∧ t.me.fcsr = u.me.fcsr ∧
      WroteMask u t d (governs u m) fun i =>
        p.2 (reg u a).tag.width ((reg u a).elem (reg u a).tag.width i) (second s u b (reg u a).tag i)

/-- The float words of R210 over the shared computations of one element, with the rounding mode of FCSR. -/
def Sys2Proof.Claim.floatRules : List ((MReg → VReg → VReg → Src → Instr) × Bool × (Tag → RM → Nat → Nat → Nat → Res)) :=
  [(.vfadd, false, fun t r x y _ => faddElem t r x y), (.vfsub, false, fun t r x y _ => fsubElem t r x y),
   (.vfmul, false, fun t r x y _ => fmulElem t r x y), (.vfma, true, fun t r x y z => fmaElem t r false x y z),
   (.vfms, true, fun t r x y z => fmaElem t r true x y z), (.vfdiv, false, fun t r x y _ => fdivElem t r x y),
   (.vfmin, false, fun t _ x y _ => fminmaxElem t false x y), (.vfmax, false, fun t _ x y _ => fminmaxElem t true x y)]

/-- R210: VFADD, VFSUB, VFMUL, VFMA, VFMS, VFDIV, VFMIN and VFMAX complete while no flag is trapped, write the rounded result to
every governed element under tag(A), and OR into FCSR exactly the flags that some governed element raised. -/
def Obligations.FloatWordsCompute : Prop :=
  ∀ p ∈ floatRules, ∀ (m : MReg) (d a : VReg) (b : Src) (s u : State), Enters (p.1 m d a b) false s u →
    (reg u a).tag ∈ floatTags → secondTagged u b (reg u a).tag → (p.2.1 = true → (reg u d).tag = (reg u a).tag) →
    fits u (reg u a).tag.width → noFpTraps u →
    ∃ t, exec (p.1 m d a b) s = .next t ∧ Frame u t ∧ slotsAndFlags u t ∧
      (let r := fun i => p.2.2 (reg u a).tag (rmOf u.me.fcsr) ((reg u a).elem (reg u a).tag.width i)
          (second s u b (reg u a).tag i) ((reg u d).elem (reg u a).tag.width i)
       Wrote u t d (reg u a).tag.width (reg u a).tag (governs u m) (fun i => (r i).1) ∧ raised u t (governs u m) fun i => (r i).2)

def Sys2Proof.Claim.floatCompareRules : List ((MReg → MReg → VReg → Src → Instr) × (Tag → Nat → Nat → Bool × Nat)) :=
  [(.vfseq, feqElem), (.vfslt, fltElem), (.vfsle, fleElem)]

/-- R212: VFSEQ, VFSLT and VFSLE complete while no flag is trapped, set the governed bits of mask D to the test, and raise the
flags of the governed elements, also when D is m0. -/
def Sys2Proof.Claim.FloatComparesSetMasks : Prop :=
  ∀ p ∈ floatCompareRules, ∀ (m d : MReg) (a : VReg) (b : Src) (s u : State), Enters (p.1 m d a b) false s u →
    (reg u a).tag ∈ floatTags → secondTagged u b (reg u a).tag → fits u (reg u a).tag.width → noFpTraps u →
    ∃ t, exec (p.1 m d a b) s = .next t ∧ Frame u t ∧ masksAndFlags u t ∧
      (let r := fun i => p.2 (reg u a).tag ((reg u a).elem (reg u a).tag.width i) (second s u b (reg u a).tag i)
       WroteMask u t d (governs u m) (fun i => (r i).1) ∧ raised u t (governs u m) fun i => (r i).2)

/-- R211 R212: the integer and the floating-point compares write masks. -/
def Obligations.ComparesSetMasks : Prop := IntegerComparesSetMasks ∧ FloatComparesSetMasks

/-- The offset of a slide and the distance of an exchange: a scalar or the immediate (12 R214 R216). -/
def Sys2Proof.Claim.offset (s : State) (b : Src) : Nat :=
  match b with
  | .s r => (s.rd r).toNat
  | .i imm => imm.toNat
  | .v _ => 0

/-- What the entries that move whole elements write to element i: none where they leave it (12 R213 to R216). -/
def Sys2Proof.Claim.moved (s u : State) (i : Nat) : Instr → Option Nat
  | .vmerge m _ a b => let w := (reg u a).tag.width
      some (if maskBit u m i then second s u b (reg u a).tag i else (reg u a).elem w i)
  | .vslideup _ _ a b => if offset s b ≤ i then some ((reg u a).elem (reg u a).tag.width (i - offset s b)) else none
  | .vslidedn _ _ a b =>
      some (if i + offset s b < u.me.v.vl then (reg u a).elem (reg u a).tag.width (i + offset s b) else 0)
  | .vperm _ _ a b => let y := (reg u b).elem (reg u a).tag.width i
      some (if y < u.me.v.vl then (reg u a).elem (reg u a).tag.width y else 0)
  | .vxch _ _ a b =>
      some (if i ^^^ offset s b < u.me.v.vl then (reg u a).elem (reg u a).tag.width (i ^^^ offset s b) else 0)
  | _ => none

/-- R213 to R216: VMERGE, VSLIDEUP, VSLIDEDN, VPERM and VXCH complete for every tag but E2M1 and move elements as their rules
say; VMERGE writes every element below vl, the others the governed ones. -/
def Obligations.MovingWordsMoveElements : Prop :=
  ∀ (m : MReg) (d a v : VReg) (b : Src) (i : Instr) (s u : State),
    (i = .vmerge m d a b ∧ secondTagged u b (reg u a).tag ∧ (∀ imm, b = .i imm → (reg u a).tag ≠ .raw ∧ (reg u a).tag ≠ .e8m0)
      ∨ (i = .vslideup m d a b ∨ i = .vslidedn m d a b)
      ∨ i = .vperm m d a v ∧ (reg u v).tag ∈ intTags ∧ (reg u v).tag.width = (reg u a).tag.width
      ∨ i = .vxch m d a b ∧ offset s b ∈ [1, 2, 4, 8, 16, 32]) →
    Enters i false s u → (reg u a).tag ≠ .e2m1 → fits u (reg u a).tag.width →
    ∃ t, exec i s = .next t ∧ Frame u t ∧ onlySlots u t ∧
      Wrote u t d (reg u a).tag.width (reg u a).tag
        (fun k => (if i = .vmerge m d a b then decide (k < u.me.v.vl) else governs u m k) && (moved s u k i).isSome)
        fun k => ((moved s u k i).getD 0 : Nat)

/-- What the unary integer words write (12 R217). -/
def Sys2Proof.Claim.unaryRules : List ((MReg → VReg → VReg → Instr) × List Tag × (Tag → Nat → Int)) :=
  [(.vneg, intTags, fun _ x => -x), (.vabs, intTags, fun t x => |kindOf t x|),
   (.vnot, [.raw, .i8, .i16, .i32, .n8, .n16, .n32, .f32, .f16, .bf16, .e4m3, .e5m2, .e8m0], fun _ x => -x - 1),
   (.vclz, intTags, fun t x => (((List.range t.width).find? fun k => x.testBit (t.width - 1 - k)).getD t.width : Nat)),
   (.vpopce, intTags, fun t x => (((List.range t.width).filter fun k => x.testBit k).length : Nat)),
   (.vmov, [.i8, .i16, .i32, .n8, .n16, .n32, .f32, .f16, .bf16, .e4m3, .e5m2, .e8m0], fun _ x => x)]

/-- R217: VMOV, VNEG, VABS, VNOT, VCLZ and VPOPCE complete and write the table's result; VMOV moves the elements of E2M1 and RAW
registers bit for bit as well, with the two sidecar bytes of each block that holds a governed element. -/
def Sys2Proof.Claim.UnaryWordsCompute : Prop :=
  (∀ p ∈ unaryRules, ∀ (m : MReg) (d a : VReg) (s u : State), Enters (p.1 m d a) false s u → (reg u a).tag ∈ p.2.1 →
    fits u (reg u a).tag.width →
    ∃ t, exec (p.1 m d a) s = .next t ∧ Frame u t ∧ onlySlots u t ∧
      Wrote u t d (reg u a).tag.width (reg u a).tag (governs u m) fun i =>
        p.2.2 (reg u a).tag ((reg u a).elem (reg u a).tag.width i)) ∧
  (∀ (m : MReg) (d a : VReg) (s u : State), Enters (.vmov m d a) false s u → (reg u a).tag ∈ [Tag.e2m1, .raw] →
    fits u (reg u a).tag.width →
    ∃ t, exec (.vmov m d a) s = .next t ∧ Frame u t ∧ onlySlots u t ∧
      WroteData u t d (reg u a).tag.width (reg u a).tag (governs u m) (fun i => (reg u a).elem (reg u a).tag.width i) ∧
      ∀ k, k < 256 → (reg t d).block k =
        if (List.range u.me.v.vl).any fun i => governs u m i && i * (reg u a).tag.width / 128 == k then (reg u a).block k
        else (reg u d).block k)

/-- R218 R219: VIOTA numbers the governed elements in the N format of the width of the last grant; VTAG gives D the bits and the
sidecar of A under a new tag, whatever VL is. -/
def Sys2Proof.Claim.IotaAndRetagComplete : Prop :=
  (∀ (m : MReg) (d : VReg) (t : Tag) (s u : State), Enters (.viota m d) false s u →
    (s.me.v.vw = 1 ∧ t = .n8 ∨ s.me.v.vw = 2 ∧ t = .n16 ∨ s.me.v.vw = 3 ∧ t = .n32) → fits u t.width →
    ∃ v, exec (.viota m d) s = .next v ∧ Frame u v ∧ onlySlots u v ∧
      Wrote u v d t.width t (governs u m) fun i => (((List.range i).filter fun k => governs u m k).length : Nat)) ∧
  (∀ (d a : VReg) (t : Tag) (s u : State), Enters (.vtag d a t) false s u →
    ∃ v, exec (.vtag d a t) s = .next v ∧ Frame u v ∧ onlySlots u v ∧
      (reg v d).bits = (reg u a).bits ∧ (reg v d).side = (reg u a).side ∧ (reg v d).tag = t ∧
      ∀ k, k ≠ place u d → v.slot k = u.slot k)

/-- R217 R218 R219: the unary words, VIOTA and VTAG complete. -/
def Obligations.UnaryIotaAndRetagComplete : Prop := UnaryWordsCompute ∧ IotaAndRetagComplete

/-- The float unary words of R220 over the shared computations of one element, and the result tag. -/
def Sys2Proof.Claim.floatUnaryRules : List ((MReg → VReg → VReg → Instr) × (Tag → Tag) × (Tag → RM → Nat → Res)) :=
  [(.vfneg, id, fun t _ x => fnegElem t x), (.vfabs, id, fun t _ x => fabsElem t x), (.vfsqrt, id, fsqrtElem),
   (.vfrcp, id, frcpElem), (.vfrsq, id, frsqElem), (.vfexp2, id, fexp2Elem),
   (.vfclass, fun t => if t = .f32 then .n32 else .n16, fun t _ x => (fclassElem t x, 0))]

/-- R220 R221: VFNEG, VFABS, VFSQRT, VFRCP, VFRSQ, VFEXP2 and VFCLASS complete while no flag is trapped, write the result to every
governed element, and OR into FCSR exactly the flags that some governed element raised. -/
def Obligations.FloatUnaryWordsCompute : Prop :=
  ∀ p ∈ floatUnaryRules, ∀ (m : MReg) (d a : VReg) (s u : State), Enters (p.1 m d a) false s u →
    (reg u a).tag ∈ floatTags → fits u (reg u a).tag.width → noFpTraps u →
    ∃ t, exec (p.1 m d a) s = .next t ∧ Frame u t ∧ slotsAndFlags u t ∧
      (let r := fun i => p.2.2 (reg u a).tag (rmOf u.me.fcsr) ((reg u a).elem (reg u a).tag.width i)
       Wrote u t d (reg u a).tag.width (p.2.1 (reg u a).tag) (governs u m) (fun i => (r i).1) ∧
         raised u t (governs u m) fun i => (r i).2)

/-- R222 R223: VCVT without EF to any target but E2M1 completes while no flag is trapped: part p of the wider side meets
the elements of the narrower, each governed element is converted, and D takes the target's tag. -/
def Sys2Proof.Claim.ConversionsComplete : Prop :=
  ∀ (m : MReg) (d a : VReg) (t : Tag) (p : BitVec 2) (s u : State), Enters (.vcvt m d a t p false) false s u →
    (reg u a).tag ≠ .raw → t ≠ .raw → t ≠ .e2m1 → ((reg u a).tag = .e2m1 → p = 0 ∨ u.me.v.vl % 32 = 0) →
    p.toNat < max (reg u a).tag.width t.width / min (reg u a).tag.width t.width →
    fits u (max (reg u a).tag.width t.width) → noFpTraps u →
    ∃ v, exec (.vcvt m d a t p false) s = .next v ∧ Frame u v ∧ slotsAndFlags u v ∧
      (let ws := (reg u a).tag.width
       let first := p.toNat * u.me.v.vl
       let src := fun i => if ws < t.width then first + i else i
       let r := fun i => (reg u a).convert t (rmOf u.me.fcsr) (src i)
       Wrote u v d t.width t (fun j => if t.width < ws then decide (first ≤ j) && governs u m (j - first) else governs u m j)
         (fun j => if t.width < ws then (r (j - first)).1 else (r j).1) ∧
       raised u v (governs u m) fun i => (r i).2)

/-- R55 R56 R57 R222: VCVT to E2M1 quantises block by block and writes the sidecars of the blocks it meets; VCVT with EF runs the
chain over the governed elements in order and leaves the last carry in EFC. -/
def Sys2Proof.Claim.QuantisingConversionsComplete : Prop :=
  (∀ (m : MReg) (d a : VReg) (s u : State) (p : BitVec 2), Enters (.vcvt m d a .e2m1 p false) false s u →
    (reg u a).tag ∈ floatTags → p.toNat < (reg u a).tag.width / 4 → fits u (reg u a).tag.width →
    (p = 0 ∨ u.me.v.vl % 32 = 0) → noFpTraps u →
    ∃ v, exec (.vcvt m d a .e2m1 p false) s = .next v ∧ Frame u v ∧ slotsAndFlags u v ∧
      (let first := p.toNat * u.me.v.vl
       let q := quantizeAll (((List.range u.me.v.vl).filter fun i => governs u m i).map fun i =>
          (first + i, valueOf (reg u a).tag ((reg u a).elem (reg u a).tag.width i),
            isSnan (reg u a).tag ((reg u a).elem (reg u a).tag.width i)))
       WroteData u v d 4 .e2m1 (fun j => decide (first ≤ j) && governs u m (j - first))
         (fun j => ((q.1.find? fun c => c.1 == j).map Prod.snd).getD 0) ∧
       (∀ k, k < 256 → (reg v d).block k = match q.2.1.find? fun c => c.1 == k with
         | some c => (c.2.1 % 256, c.2.2 % 256)
         | none => (reg u d).block k) ∧
       v.me.fcsr = orFlags u.me.fcsr q.2.2)) ∧
  (∀ (m : MReg) (d a : VReg) (t : Tag) (s u : State) (p : BitVec 2), Enters (.vcvt m d a t p true) false s u →
    (reg u a).tag ≠ .raw → t ∈ [Tag.f16, .bf16, .e4m3, .e5m2] → ((reg u a).tag = .e2m1 → p = 0 ∨ u.me.v.vl % 32 = 0) →
    p.toNat < max (reg u a).tag.width t.width / min (reg u a).tag.width t.width →
    fits u (max (reg u a).tag.width t.width) → noFpTraps u →
    ∃ v, exec (.vcvt m d a t p true) s = .next v ∧ Frame u v ∧
      (let ws := (reg u a).tag.width
       let first := p.toNat * u.me.v.vl
       let src := fun i => if ws < t.width then first + i else i
       let dst := fun i => if t.width < ws then first + i else i
       let q := efChain t (((List.range u.me.v.vl).filter fun i => governs u m i).map fun i =>
          (dst i, (reg u a).widened (src i))) u.me.efc.toNat
       v.me.efc = BitVec.ofNat 32 q.2.1 ∧ v.me.regs = u.me.regs ∧ v.me.v.masks = u.me.v.masks ∧
       Wrote u v d t.width t (fun j => if t.width < ws then decide (first ≤ j) && governs u m (j - first) else governs u m j)
         (fun j => ((q.1.find? fun c => c.1 == j).map Prod.snd).getD 0) ∧
       v.me.fcsr = orFlags u.me.fcsr q.2.2))

/-- R54 to R57 R222 R223: VCVT completes between the formats, and with E2M1 blocks on either side. That error feedback adds an integer
element exactly, and takes an E2M1 element as F32 rounds it, is the model's reading of R56 (log entry 16). -/
def Obligations.ConversionWordsComplete : Prop := ConversionsComplete ∧ QuantisingConversionsComplete

/-- The integer reductions of R225 over the start value and the governed elements, extended as the rule says. -/
def Sys2Proof.Claim.reductionRules : List ((MReg → SReg → VReg → Instr) × (Tag → Word → List Nat → Int)) :=
  [(.vredsum, fun t x l => x.toNat + (l.map fun e => kindOf t e).sum),
   (.vredmax, fun t x l => (l.map fun e => sx t.width e).foldl max x.toInt),
   (.vredmin, fun t x l => (l.map fun e => sx t.width e).foldl min x.toInt),
   (.vredmaxn, fun _ x l => (l.foldl max x.toNat : Nat)), (.vredminn, fun _ x l => (l.foldl min x.toNat : Nat))]

/-- The governed elements of a register, in ascending order. -/
def Sys2Proof.Claim.governedElems (u : State) (m : MReg) (a : VReg) : List Nat :=
  ((List.range u.me.v.vl).filter fun i => governs u m i).map fun i => (reg u a).elem (reg u a).tag.width i

/-- R224 R225: VREDSUM, VREDMAX, VREDMIN, VREDMAXN and VREDMINN complete and write s[D], from the start value it held at decode; s0
discards the result. -/
def Sys2Proof.Claim.IntegerReductionsWriteScalar : Prop :=
  ∀ p ∈ reductionRules, ∀ (m : MReg) (d : SReg) (a : VReg) (s u : State), Enters (p.1 m d a) false s u →
    (reg u a).tag ∈ intTags → fits u (reg u a).tag.width →
    ∃ t, exec (p.1 m d a) s = .next t ∧ Frame u t ∧ scalarAndFlags u t d ∧ t.me.fcsr = u.me.fcsr ∧
      (d ≠ 0 → t.rd d = BitVec.ofInt 64 (p.2 (reg u a).tag (s.rd d) (governedElems u m a)))

/-- R226 R58: VREDFSUM, VREDFMAX and VREDFMIN fold blocks of 32 positions, absent positions giving way, from bits 31–0 of s[D], and
write the zero-extended F32 result. -/
def Sys2Proof.Claim.FloatReductionsWriteScalar : Prop :=
  ∀ p ∈ [((.vredfsum : MReg → SReg → VReg → Instr), faddElem .f32 .rne), (.vredfmax, fminmaxElem .f32 true),
      (.vredfmin, fminmaxElem .f32 false)],
    ∀ (m : MReg) (d : SReg) (a : VReg) (s u : State), Enters (p.1 m d a) false s u → (reg u a).tag ∈ floatTags →
    fits u (reg u a).tag.width → noFpTraps u →
    ∃ t, exec (p.1 m d a) s = .next t ∧ Frame u t ∧ scalarAndFlags u t d ∧
      (let f := fun i => widenF32 (reg u a).tag ((reg u a).elem (reg u a).tag.width i)
       let r := blockFold p.2 (fun i => if governs u m i then some (f i).1 else none) ((s.rd d).toNat % 2 ^ 32)
          ((u.me.v.vl + 31) / 32)
       (d ≠ 0 → t.rd d = BitVec.ofNat 64 r.1) ∧
       ∀ j, t.me.fcsr.getLsbD j = (u.me.fcsr.getLsbD j || (decide (3 ≤ j ∧ j ≤ 7) &&
         (r.2.testBit j || (List.range u.me.v.vl).any fun i => governs u m i && (f i).2.testBit j))))

/-- R224 R225 R226: the integer and the floating-point reductions write one scalar. -/
def Obligations.ReductionsWriteScalar : Prop := IntegerReductionsWriteScalar ∧ FloatReductionsWriteScalar

/-- The mask words of R228. -/
def Sys2Proof.Claim.maskRule (a b : Bool) : Instr → Bool
  | .mand _ _ _ _ => a && b
  | .mor _ _ _ _ => a || b
  | .mxor _ _ _ _ => a != b
  | .mandn _ _ _ _ => a && !b
  | .mnot _ _ _ => !a
  | .mset _ _ => true
  | .mclr _ _ => false
  | _ => a

/-- R227 R228: VPOPC counts and VFIRST finds the governed bits set in mask A; MAND, MOR, MXOR, MANDN, MNOT, MSET, MCLR and MMOV set
the governed bits of mask D and no other. -/
def Sys2Proof.Claim.MaskWordsComplete : Prop :=
  (∀ (m a : MReg) (d : SReg) (s u : State), Enters (.vpopc m d a) false s u →
    ∃ t, exec (.vpopc m d a) s = .next t ∧ Frame u t ∧ scalarAndFlags u t d ∧ t.me.fcsr = u.me.fcsr ∧
      (d ≠ 0 → t.rd d = BitVec.ofNat 64 ((List.range u.me.v.vl).filter fun i => governs u m i && maskBit u a i).length)) ∧
  (∀ (m a : MReg) (d : SReg) (s u : State), Enters (.vfirst m d a) false s u →
    ∃ t, exec (.vfirst m d a) s = .next t ∧ Frame u t ∧ scalarAndFlags u t d ∧ t.me.fcsr = u.me.fcsr ∧
      (d ≠ 0 → t.rd d = match (List.range u.me.v.vl).find? fun i => governs u m i && maskBit u a i with
        | some i => BitVec.ofNat 64 i
        | none => 0xFFFFFFFFFFFFFFFF)) ∧
  ∀ (m d a b : MReg) (i : Instr) (s u : State),
    i ∈ [Instr.mand m d a b, .mor m d a b, .mxor m d a b, .mandn m d a b, .mnot m d a, .mset m d, .mclr m d, .mmov m d a] →
    Enters i false s u →
    ∃ t, exec i s = .next t ∧ Frame u t ∧ masksAndFlags u t ∧ t.me.fcsr = u.me.fcsr ∧
      WroteMask u t d (governs u m) fun k => maskRule (maskBit u a k) (maskBit u b k) i

/-- A strand after a record has been written to the queue of a partition: a Fliven strand of the partition that sleeps in WAITUNTIL goes
on behind it, any other is as it was (22 R310). -/
def Sys2Proof.Claim.wokenBy (p : Nat) (x : Strand) : Strand :=
  match x.wait.on_ with
  | some (.waituntil _) => if x.fliven = true ∧ x.fl.spid = p ∧ x.status = .ready then { x with pc := x.pc + 4, wait := {}, owed := [] } else x
  | _ => x

/-- The other strands are as they were, or as a record written to the queue of a partition leaves them. -/
def Sys2Proof.Claim.OthersWoken (p : Nat) (s t : State) : Prop :=
  t.others = s.others ∨ t.others = s.others.map fun q => (q.1, wokenBy p q.2)

/-- A strand has stopped at VCP for a fault of its oldest entry, which stays in the queue; the word after it is where decode goes on, no
scalar register has changed, and of the other strands only those that its fault record wakes. -/
structure Sys2Proof.Claim.StopsAtVcp (u t : State) (e : Entry) (f : Trap) : Prop where
  stopped : t.me.status = .stopped ∧ t.me.stopped = some f ∧ t.me.stopKind = 1 ∧ t.me.stopSeq = (u.me.stopSeq + 1) % 2 ^ 32
  here : t.me.queue = [.entry e] ∧ t.me.pc = u.me.pc
  regs : ∀ r, t.rd r = u.rd r
  others : OthersWoken u.me.id.pid u t

/-- The same, with every vector register, mask, stream slot and flag as it was: the fault is found before anything is written. -/
def Sys2Proof.Claim.Refused (u t : State) (e : Entry) (c : Cause) : Prop :=
  StopsAtVcp u t e { cause := c } ∧ t.me.v = u.me.v ∧ t.me.fcsr = u.me.fcsr ∧ t.me.efc = u.me.efc

/-- R229 R230: on a register with tag E2M1 VSPLAT, VINS and VMOVS raise FORMAT. VSPLAT writes the scalar to every governed element and VINS to the lowest one, under the tag D has; VMOVS returns
the lowest governed element extended by its tag's kind, or 0 when there is none. -/
def Sys2Proof.Claim.ScalarMovesComplete : Prop :=
  (∀ (m : MReg) (d : VReg) (a : SReg) (s u : State), Enters (.vsplat m d a) false s u → (reg u d).tag ≠ .e2m1 →
    fits u (reg u d).tag.width →
    ∃ t, exec (.vsplat m d a) s = .next t ∧ Frame u t ∧ onlySlots u t ∧
      Wrote u t d (reg u d).tag.width (reg u d).tag (governs u m) fun _ => (s.rd a).toNat) ∧
  (∀ (m : MReg) (d : VReg) (a : SReg) (s u : State), Enters (.vins m d a) false s u → (reg u d).tag ≠ .e2m1 →
    fits u (reg u d).tag.width →
    ∃ t, exec (.vins m d a) s = .next t ∧ Frame u t ∧ onlySlots u t ∧
      Wrote u t d (reg u d).tag.width (reg u d).tag
        (fun i => governs u m i && !(List.range i).any fun k => governs u m k) fun _ => (s.rd a).toNat) ∧
  (∀ (m : MReg) (d : SReg) (v : VReg) (r : SReg) (s u : State), (reg u v).tag = .e2m1 →
    ∀ i ∈ [Instr.vsplat m v r, .vins m v r, .vmovs m d v], Enters i false s u → popSlots s.me.v (entryFor s i) = [] →
    ∃ t, exec i s = .next t ∧ Refused u t (entryFor s i) .format) ∧
  ∀ (m : MReg) (d : SReg) (a : VReg) (s u : State), Enters (.vmovs m d a) false s u → (reg u a).tag ≠ .e2m1 →
    fits u (reg u a).tag.width →
    ∃ t, exec (.vmovs m d a) s = .next t ∧ Frame u t ∧ scalarAndFlags u t d ∧ t.me.fcsr = u.me.fcsr ∧
      (d ≠ 0 → t.rd d = match (governedElems u m a).head? with
        | none => 0
        | some x => BitVec.ofInt 64 (kindOf (reg u a).tag x))

/-- R227 to R230: VPOPC, VFIRST, the mask words, VSPLAT, VINS and VMOVS complete. -/
def Obligations.MaskWordsAndScalarMovesComplete : Prop := MaskWordsComplete ∧ ScalarMovesComplete


/-! Scalar arithmetic and transfers (11_ref_control). -/

/-- A truth value as a number. -/
def Sys2Proof.Claim.asInt (b : Bool) : Int := if b then 1 else 0

/-- The table of R182: the result as a number, to be reduced modulo 2^64. -/
def Sys2Proof.Claim.scalarRules : List ((SReg → SReg → SReg → Instr) × (Word → Word → Int)) :=
  [(.add, fun x y => x.toNat + y.toNat), (.sub, fun x y => x.toNat - y.toNat), (.and, fun x y => (x &&& y).toNat),
   (.or, fun x y => (x ||| y).toNat), (.xor, fun x y => (x ^^^ y).toNat), (.andn, fun x y => (x &&& ~~~y).toNat),
   (.shl, fun x y => x.toNat * 2 ^ (y.toNat % 64)), (.shr, fun x y => x.toNat / 2 ^ (y.toNat % 64)),
   (.sar, fun x y => x.toInt / 2 ^ (y.toNat % 64)), (.slt, fun x y => asInt (decide (x.toInt < y.toInt))),
   (.sltn, fun x y => asInt (decide (x.toNat < y.toNat))), (.min, fun x y => min x.toInt y.toInt),
   (.max, fun x y => max x.toInt y.toInt), (.minn, fun x y => min x.toNat y.toNat), (.maxn, fun x y => max x.toNat y.toNat),
   (.mul, fun x y => x.toNat * y.toNat), (.mulh, fun x y => x.toInt * y.toInt / 2 ^ 64),
   (.mulhn, fun x y => x.toNat * y.toNat / 2 ^ 64), (.div, fun x y => if y = 0 then -1 else x.toInt.tdiv y.toInt),
   (.divn, fun x y => if y = 0 then -1 else x.toNat / y.toNat), (.rem, fun x y => if y = 0 then x.toInt else x.toInt.tmod y.toInt),
   (.remn, fun x y => if y = 0 then x.toNat else x.toNat % y.toNat)]

/-- R182: the 22 instructions of two sources complete, write the table's result to s[D] (s0 discards it), go on at the next
word, and change nothing else. -/
def Sys2Proof.Claim.ScalarTwoSourcesCompute : Prop :=
  ∀ p ∈ scalarRules, ∀ (d a b : SReg) (s : State), Free s [d, a, b] →
    exec (p.1 d a b) s = .next (passed (s.wr d (BitVec.ofInt 64 (p.2 (s.rd a) (s.rd b)))))

/-- The instructions of one source (R182). -/
def Sys2Proof.Claim.unaryScalarRules : List ((SReg → SReg → Instr) × (Word → Int)) :=
  [(.clz, fun x => (((List.range 64).find? fun k => x.getLsbD (63 - k)).getD 64 : Nat)),
   (.ctz, fun x => (((List.range 64).find? fun k => x.getLsbD k).getD 64 : Nat)),
   (.popc, fun x => (((List.range 64).filter fun k => x.getLsbD k).length : Nat)),
   (.sextb, fun x => sx 8 x.toNat), (.sexth, fun x => sx 16 x.toNat), (.sextw, fun x => sx 32 x.toNat)]

/-- The instructions with a 12-bit immediate, sign-extended (R184 R185). -/
def Sys2Proof.Claim.immediateRules : List ((SReg → SReg → BitVec 12 → Instr) × (Word → Int → Int)) :=
  [(.addi, fun x i => x.toNat + i), (.andi, fun x i => (x &&& BitVec.ofInt 64 i).toNat),
   (.ori, fun x i => (x ||| BitVec.ofInt 64 i).toNat), (.xori, fun x i => (x ^^^ BitVec.ofInt 64 i).toNat),
   (.slti, fun x i => asInt (decide (x.toInt < i))), (.sltin, fun x i => asInt (decide (x.toNat < (BitVec.ofInt 64 i).toNat)))]

/-- The shifts by an immediate (R185). -/
def Sys2Proof.Claim.shiftRules : List ((SReg → SReg → BitVec 6 → Instr) × (Word → Nat → Int)) :=
  [(.shli, fun x n => x.toNat * 2 ^ n), (.shri, fun x n => x.toNat / 2 ^ n), (.sari, fun x n => x.toInt / 2 ^ n)]

/-- R182 R184 R185 R186: the instructions of one source, with an immediate, and of none complete, write s[D] and change nothing
else; LUI and ADDPC scale the sign-extended IMM20 by 4,096. -/
def Sys2Proof.Claim.ScalarOneSourceCompute : Prop :=
  ∀ (d a : SReg) (s : State), Free s [d, a] →
    (∀ p ∈ unaryScalarRules, exec (p.1 d a) s = .next (passed (s.wr d (BitVec.ofInt 64 (p.2 (s.rd a))))) ∧
      ∀ w : Word32, decode w = .ok (p.1 d a) → w.toNat / 256 % 64 = 0) ∧
    (∀ p ∈ immediateRules, ∀ i : BitVec 12,
      exec (p.1 d a i) s = .next (passed (s.wr d (BitVec.ofInt 64 (p.2 (s.rd a) i.toInt))))) ∧
    (∀ p ∈ shiftRules, ∀ n : BitVec 6, exec (p.1 d a n) s = .next (passed (s.wr d (BitVec.ofInt 64 (p.2 (s.rd a) n.toNat))))) ∧
    ∀ i : BitVec 20, exec (.lui d i) s = .next (passed (s.wr d (BitVec.ofInt 64 (i.toInt * 4096)))) ∧
      exec (.addpc d i) s = .next (passed (s.wr d (BitVec.ofInt 64 (s.me.pc.toNat + i.toInt * 4096))))

/-- R182 R184 R185 R186: the words of the scalar ALU, with two sources, one or none, complete with the result of their table. -/
def Obligations.ScalarWordsCompute : Prop := ScalarTwoSourcesCompute ∧ ScalarOneSourceCompute

/-- The tests of R187. -/
def Sys2Proof.Claim.branchRules : List ((SReg → SReg → BitVec 12 → Instr) × (Word → Word → Bool)) :=
  [(.beq, fun x y => decide (x = y)), (.bne, fun x y => decide (x ≠ y)), (.blt, fun x y => decide (x.toInt < y.toInt)),
   (.bge, fun x y => decide (y.toInt ≤ x.toInt)), (.bltn, fun x y => decide (x.toNat < y.toNat)),
   (.bgen, fun x y => decide (y.toNat ≤ x.toNat)), (.bbs, fun x y => x.toNat / 2 ^ (y.toNat % 64) % 2 == 1),
   (.bbc, fun x y => x.toNat / 2 ^ (y.toNat % 64) % 2 == 0)]

/-- The target of a relative transfer: PC + sext(offset) × 4 (R180). -/
def Sys2Proof.Claim.target {n : Nat} (s : State) (o : BitVec n) : Word := BitVec.ofInt 64 (s.me.pc.toNat + 4 * o.toInt)

/-- R187 R188: a branch goes to its target when its test holds and on to the next word when not; J and CALL always go, and CALL
leaves PC + 4 in s63. Nothing else changes. -/
def Obligations.BranchesAndRelativeJumpsGo : Prop :=
  (∀ p ∈ branchRules, ∀ (a b : SReg) (o : BitVec 12) (s : State), Free s [a, b] →
    exec (p.1 a b o) s = .next (goesTo s (if p.2 (s.rd a) (s.rd b) then target s o else s.me.pc + 4))) ∧
  (∀ (o : BitVec 25) (s : State), exec (.j o) s = .next (goesTo s (target s o))) ∧
  ∀ (o : BitVec 25) (s : State), Free s [63] → exec (.call o) s = .next (goesTo (s.wr 63 (s.me.pc + 4)) (target s o))

/-- No entry is queued. -/
def Sys2Proof.Claim.Idle (s : State) : Prop := entriesOf s.me.queue = [] ∧ NoLoads s

/-- R180 R183: JR and CALLR go to a word-aligned generic address, CALLR with the link written after the target is read; a target
outside the generic space raises PROTECTION, else one that is not a multiple of 4 MISALIGN, and nothing is written first. That such a fault
names no address (ADDR 0) is the model's choice (log entry 18). -/
def Obligations.RegisterJumpsGoOrTrap : Prop :=
  ∀ (a : SReg) (s : State), Free s [a, 63] →
    ((s.rd a).toNat < 2 ^ 48 → (s.rd a).toNat % 4 = 0 →
      exec (.jr a) s = .next (goesTo s (s.rd a)) ∧ exec (.callr a) s = .next (goesTo (s.wr 63 (s.me.pc + 4)) (s.rd a))) ∧
    (Idle s → 2 ^ 48 ≤ (s.rd a).toNat ∨ (s.rd a).toNat % 4 ≠ 0 → ∀ i ∈ [Instr.jr a, .callr a],
      exec i s = .next (takeTrap 0 (encode i).toNat
        { cause := if 2 ^ 48 ≤ (s.rd a).toNat then .protection else .misalign } s))

/-! Scalar memory (13_ref_memory). -/

/-- One byte as its home holds it: of memory, or of scratchpad, where a page in its backing area is refilled first (05 R74). -/
def Sys2Proof.Claim.byteAt (s : State) : Loc → Byte
  | .gen pa _ _ => s.mem.byte pa
  | .spad g c o => (spadMem (refillPage s g c o) g c).byte o

/-- The number that n bytes from a place hold (00_scope R2). -/
def Sys2Proof.Claim.numberAt (s : State) (l : Loc) (n : Nat) : Nat :=
  ((List.range n).map fun i => (byteAt s (l.plus i)).toNat * 256 ^ i).sum

/-- The number that a read of the strand with a request type finds there: an untracked copy in its core's L1 or, of a page outside
the device, in a gateway slice may stand in for the home (05 R68 R71, 16 R294). -/
def Sys2Proof.Claim.numberSeen (s : State) (rt : ReqType) (l : Loc) (n : Nat) : Nat :=
  let inCopy := fun (pa : Nat) (d : List Byte) =>
    ((List.range n).map fun i => ((d[pa % 128 + i]?).getD 0).toNat * 256 ^ i).sum
  match l, s.agent.core with
  | .gen pa ty gate, some c =>
    if effective s.agent rt pa ty = .uc then numberAt s l n
    else match Map.get? (s.core c).l1 (pa / 128) with
      | some x => if x.own then numberAt s l n else inCopy pa x.data
      | none => if isRemote pa then match Map.get? (s.die gate).gate (pa / 128) with
          | some x => inCopy pa x.data
          | none => numberAt s l n
        else numberAt s l n
  | _, _ => numberAt s l n

/-- A read of the strand has written one register: every other register, every byte of memory and scratchpad, and the rest of the
strand but the memory order's note of the read are as they were. -/
structure Sys2Proof.Claim.ReadFrame (s t : State) (d : SReg) : Prop where
  regs : ∀ r, r ≠ d → t.rd r = s.rd r
  me : t.me = { s.me with regs := t.me.regs, pc := s.me.pc + 4, wait := {}, owed := []
                          ord := { s.me.ord with readSig := t.me.ord.readSig } }
  bytes : ∀ l, byteAt t l = byteAt s l
  rest : t.others = s.others ∧ t.parts = s.parts ∧ t.syncs = s.syncs ∧ t.streams = s.streams ∧ t.lineSig = s.lineSig

/-- The plain loads of R234: bytes and extension. -/
def Sys2Proof.Claim.loadRules : List ((SReg → SReg → ReqType → BitVec 10 → Instr) × Nat × (Nat → Int)) :=
  [(.ldb, 1, sx 8), (.ldh, 2, sx 16), (.ldw, 4, sx 32), (.ldd, 8, sx 64), (.ldbn, 1, fun x => x), (.ldhn, 2, fun x => x),
   (.ldwn, 4, fun x => x)]

/-- s[A] + sext(IMM10) × n (R234). -/
def Sys2Proof.Claim.scaled (s : State) (a : SReg) (i : BitVec 10) (n : Nat) : Word :=
  BitVec.ofInt 64 ((s.rd a).toNat + i.toInt * n)

/-- R234 R242: a load that meets its checks, with nothing left pending, completes and writes what it reads to s[D], sign- or zero-extended; LDO reads 8 bytes and
LDOW 4 at their homes, zero-extended. Nothing else of the strand and no byte of memory changes. -/
def Obligations.LoadsReadTheirBytes : Prop :=
  ∀ (d a : SReg) (s : State), Free s [d, a] → s.later = false → s.me.ord.path = [] →
    (∀ p ∈ loadRules, ∀ (r : ReqType) (i : BitVec 10) (l : Place),
      check (touch s s.agent (scaled s a i p.2.1)) s.agent .load (scaled s a i p.2.1) p.2.1 p.2.1 = .ok l →
      ∃ t, exec (p.1 d a r i) s = .next t ∧ ReadFrame s t d ∧
        (d ≠ 0 → t.rd d = BitVec.ofInt 64 (p.2.2 (numberSeen s r l.loc p.2.1)))) ∧
    ∀ (o : Order) (sc : Scope) (l : Place),
      (check (touch s s.agent (s.rd a)) s.agent .load (s.rd a) 8 8 = .ok l →
        ∃ t, exec (.ldo d a o sc) s = .next t ∧ ReadFrame s t d ∧ (d ≠ 0 → t.rd d = BitVec.ofNat 64 (numberAt s l.loc 8))) ∧
      (check (touch s s.agent (s.rd a)) s.agent .load (s.rd a) 4 4 = .ok l →
        ∃ t, exec (.ldow d a o sc) s = .next t ∧ ReadFrame s t d ∧ (d ≠ 0 → t.rd d = BitVec.ofNat 64 (numberAt s l.loc 4)))

/-- n bytes from a place hold a number now, and every other byte of memory or of scratchpad is as it was. -/
def Sys2Proof.Claim.Stored (s t : State) (l : Loc) (n x : Nat) : Prop :=
  numberAt t l n = x % 256 ^ n ∧
  match l with
  | .gen pa _ _ => (∀ a, a < pa ∨ pa + n ≤ a → t.mem.byte a = s.mem.byte a) ∧ t.gangs = s.gangs
  | .spad g c o => t.mem = s.mem ∧ ∀ g' c' o', (g' ≠ g ∨ c' % 8 ≠ c % 8 ∨ o' < o ∨ o + n ≤ o') →
      byteAt t (.spad g' c' o') = byteAt s (.spad g' c' o')

/-- Tables that no memory instruction of the strand changes. -/
def Sys2Proof.Claim.Apart (s t : State) : Prop :=
  t.others = s.others ∧ t.parts = s.parts ∧ t.syncs = s.syncs ∧ t.streams = s.streams

/-- The plain stores of R234. -/
def Sys2Proof.Claim.storeRules : List ((SReg → SReg → ReqType → BitVec 10 → Instr) × Nat) :=
  [(.stb, 1), (.sth, 2), (.stw, 4), (.std, 8)]

/-- R234 R242: a store that meets its checks completes, writes the low bytes of its register and no other byte, and changes nothing
else of the strand, its registers included; STO and STOW store 8 and 4 bytes. -/
def Sys2Proof.Claim.StoresWriteTheirBytes : Prop :=
  ∀ (d a : SReg) (s : State), Free s [d, a] → s.later = false → s.me.ord.path = [] → s.me.ord.relFence = none →
    (∀ p ∈ storeRules, ∀ (r : ReqType) (i : BitVec 10) (l : Place),
      check (touch s s.agent (scaled s a i p.2)) s.agent .store (scaled s a i p.2) p.2 p.2 = .ok l →
      ∃ t, exec (p.1 d a r i) s = .next t ∧ t.me = (passed s).me ∧ Apart s t ∧ Stored s t l.loc p.2 (s.rd d).toNat) ∧
    ∀ (o : Order) (sc : Scope) (l : Place),
      (check (touch s s.agent (s.rd a)) s.agent .store (s.rd a) 8 8 = .ok l →
        ∃ t, exec (.sto a d o sc) s = .next t ∧ t.me = (passed s).me ∧ Apart s t ∧ Stored s t l.loc 8 (s.rd d).toNat) ∧
      (check (touch s s.agent (s.rd a)) s.agent .store (s.rd a) 4 4 = .ok l →
        ∃ t, exec (.stow a d o sc) s = .next t ∧ t.me = (passed s).me ∧ Apart s t ∧ Stored s t l.loc 4 (s.rd d).toNat)

/-- A load or store, plain or ordered, or an AMO whose address fails its checks takes the first fault of R67 and changes nothing before
it. -/
def Sys2Proof.Claim.LoadsAndStoresTakeTheFirstFault : Prop :=
  (∀ (d a b : SReg) (o : Order) (sc : Scope) (s : State) (f : Trap), Idle s →
    (let u := touch s s.agent (s.rd a)
     (∀ p ∈ [(Instr.ldo d a o sc, Access.load, 8), (.ldow d a o sc, .load, 4), (.sto a b o sc, .store, 8), (.stow a b o sc, .store, 4),
         (.amoswap d a b o sc, .amo, 8), (.amoadd d a b o sc, .amo, 8), (.amoand d a b o sc, .amo, 8), (.amoor d a b o sc, .amo, 8),
         (.amomax d a b o sc, .amo, 8), (.amomin d a b o sc, .amo, 8), (.amomaxn d a b o sc, .amo, 8), (.amocas d a b o sc, .amo, 8)],
       check u s.agent p.2.1 (s.rd a) p.2.2 p.2.2 = .error f →
       exec p.1 s = .next (takeTrap 0 (encode p.1).toNat f u)))) ∧
  ∀ (d a : SReg) (r : ReqType) (i : BitVec 10) (s : State) (f : Trap), Idle s →
    (∀ p ∈ loadRules, check (touch s s.agent (scaled s a i p.2.1)) s.agent .load (scaled s a i p.2.1) p.2.1 p.2.1 = .error f →
      exec (p.1 d a r i) s = .next (takeTrap 0 (encode (p.1 d a r i)).toNat f (touch s s.agent (scaled s a i p.2.1)))) ∧
    ∀ p ∈ storeRules, check (touch s s.agent (scaled s a i p.2)) s.agent .store (scaled s a i p.2) p.2 p.2 = .error f →
      exec (p.1 d a r i) s = .next (takeTrap 0 (encode (p.1 d a r i)).toNat f (touch s s.agent (scaled s a i p.2)))

/-- The 8 bytes at an address of device memory as a number, the table that a walk of an address reads at its step d, from 0 at the root,
and the entry that it finds there (24 R331 R332). -/
def Sys2Proof.Claim.wordAt (s : State) (a : Nat) : Nat := numberAt s (.gen a .normal 0) 8
def Sys2Proof.Claim.tableAt (s : State) (part x : Nat) : Nat → Nat
  | 0 => (s.part part).troot.toNat / 2048 % 2 ^ 41 * 2048
  | d + 1 => wordAt s (tableAt s part x d + 8 * (x / 2 ^ (40 - 8 * d) % 256)) / 2048 % 2 ^ 41 * 2048
def Sys2Proof.Claim.slotAt (s : State) (part x d : Nat) : Nat := tableAt s part x d + 8 * (x / 2 ^ (40 - 8 * d) % 256)
def Sys2Proof.Claim.entryAt (s : State) (part x d : Nat) : Nat := wordAt s (slotAt s part x d)

/-- The steps before d of a walk find pointers to tables, and no entry up to that of step d lies in a lost line (R331, 27 R364). -/
def Sys2Proof.Claim.TableReached (s : State) (part x d : Nat) : Prop :=
  (∀ k, k < d → (let e := entryAt s part x k
    e % 4 = 1 ∧ e / 4 % 2 ^ 9 = 0 ∧ e / 2 ^ 52 = 0 ∧ s.lost (slotAt s part x k) 8 = false))

/-- A leaf of a walk's step d is well formed for a partition: its zero bits, its target, the frame of a 16 MiB leaf and its type, a device
frame within the partition's share, no peer named by another target (24 R332; frames that have left the share or are kept, 27 R356
R364). -/
def Sys2Proof.Claim.LeafFor (s : State) (part e d : Nat) : Prop :=
  (d = 2 ∨ d = 3) ∧ e / 2 ^ 10 % 64 = 0 ∧ e / 2 ^ 60 = 0 ∧ e / 256 % 4 ≠ 3 ∧ (e / 256 % 4 ≠ 2 → e / 2 ^ 52 % 256 = 0) ∧
  (d = 2 → e / 2 ^ 16 % 256 = 0 ∧ (e / 4 % 4 = 0 ∨ e / 4 % 4 = 3)) ∧
  (e / 256 % 4 = 0 → e / 2 ^ 39 % 2 ^ 13 = 0 ∧ e / 2 ^ 36 % 8 * s.nparts / 8 = part ∧
    ∀ i, i < (if d = 2 then 256 else 1) → s.outOfShare (e / 2 ^ 16 % 2 ^ 36 + i) = false)

/-- The first byte that a leaf maps for an address, as the model keys it, and the home state of its frame, which may be of another type than
the leaf says (24 R334 R335; log entry 21). -/
def Sys2Proof.Claim.mapped (e d x : Nat) : Nat := leafBase e + x % (if d = 2 then 2 ^ 24 else 2 ^ 16)
def Sys2Proof.Claim.Clash (s : State) (e f : Nat) : Prop :=
  e / 256 % 4 ≠ 2 ∧ (e / 4 % 4 ≠ 1 ∧ (Map.get? s.apps f).isSome ∨ e / 4 % 4 ≠ 2 ∧ (Map.get? s.onces f).isSome)

/-- The leaf that an access uses, with the step of its walk: that of a buffer entry of the core or the die, else that which the walk of the
partition's table ends at (24 R332 R336). -/
def Sys2Proof.Claim.UsesLeaf (s : State) (ag : Agent) (x e d : Nat) : Prop :=
  (∃ b, tlbLookup s ag x = some b ∧ b.leaf = e ∧ d = if b.big then 2 else 3) ∨
  tlbLookup s ag x = none ∧ d < 4 ∧ TableReached s ag.part x d ∧ s.lost (slotAt s ag.part x d) 8 = false ∧ entryAt s ag.part x d = e ∧ e % 4 = 3 ∧
    LeafFor s ag.part e d ∧ ¬ Clash s e (mapped e d x / 65536)

/-- R65 R66 R67 R72 R73 R113 R331 R332 R333 R335: a scalar access of n bytes takes the first of these faults. Of a scratchpad address
SCRATCHPAD-RANGE for its form, MISALIGN, SCRATCHPAD-RANGE where no core of the gang or none of its pages is named; of a generic one PROTECTION for
its form, MISALIGN, the fault of the translation (NOT-PRESENT where an entry of the walk has V = 0, PROTECTION subcode 1 where one is malformed or
the frame is of another type), NOT-PRESENT of a page that is RELEASING, PROTECTION for W and for LONLY at level K, PAGE-TYPE, and APPEND-BEYOND
above the filled mark. With none of them it reaches the byte at the page's place. That DATA-LOST (27 R364) of the access itself comes last, and
that a lost backing line counts (log entry 63), is the model's reading (log entry 73). -/
def Sys2Proof.Claim.AddressesFaultInOrder : Prop :=
  ∀ (s : State) (ag : Agent) (a : Word) (n : Nat), n ∈ [1, 2, 4, 8] → ∀ acc ∈ [Access.load, .store, .amo],
    (let x := a.toNat
     let fails := fun (c : Cause) (k : Nat) => check s ag acc a n n = .error { cause := c, sub := k, addr := a }
     (2 ^ 63 ≤ x →
       (let form := x / 2 ^ 20 % 2 = 1 ∨ x / 2 ^ 24 % 2 ^ 39 ≠ 0
        let cid := x / 2 ^ 21 % 8
        let o := x % 2 ^ 20
        (form → fails .scratchpadRange 0) ∧ (¬ form → x % n ≠ 0 → fails .misalign 0) ∧
        (¬ form → x % n = 0 → (∀ g, s.gang? ag.gang = some g → cid ∈ g.cids → o / 0x4000 < g.task.spad → ag.core = none) →
          fails .scratchpadRange 0) ∧
        ∀ c g, ¬ form → x % n = 0 → ag.core = some c → s.gang? ag.gang = some g → cid ∈ g.cids → o / 0x4000 < g.task.spad →
          (let l := Loc.spad ag.gang (c / 8 * 8 + cid) o
           (lostPage s l = true → fails .dataLost 0) ∧ (lostPage s l = false → check s ag acc a n n = .ok { loc := l })))) ∧
     (2 ^ 48 ≤ x → x < 2 ^ 63 → fails .protection 0) ∧
     (x < 2 ^ 48 → x % n ≠ 0 → fails .misalign 0) ∧
     (x < 2 ^ 48 → x % n = 0 → tlbLookup s ag x = none → ∀ d, d < 4 → TableReached s ag.part x d →
       (let e := entryAt s ag.part x d
        let lost := s.lost (slotAt s ag.part x d) 8
        (lost = true → fails .dataLost 0) ∧
        (lost = false → e % 2 = 0 → fails .notPresent 0) ∧
        (lost = false → e % 4 = 1 → d = 3 ∨ e / 4 % 2 ^ 9 ≠ 0 ∨ e / 2 ^ 52 ≠ 0 → fails .protection 1) ∧
        (lost = false → e % 4 = 3 → ¬ LeafFor s ag.part e d ∨ Clash s e (mapped e d x / 65536) → fails .protection 1))) ∧
     ∀ e d, x < 2 ^ 48 → x % n = 0 → UsesLeaf s ag x e d → e / 256 % 4 ≠ 2 →
       (let pa := mapped e d x
        let page := Map.get? s.apps (pa / 65536)
        let kind := leafType e
        let leaving := ∃ p, page = some p ∧ p.state = .releasing
        let barred := acc ≠ .load ∧ e / 16 % 2 = 0 ∨ e / 128 % 2 = 1 ∧ ag.level = .k
        let wrong := kind = .once ∨ kind = .append ∧ acc ≠ .load ∨ kind = .device ∧ acc = .amo
        let beyond := acc = .load ∧ ∃ p, page = some p ∧ p.mark < pa % 65536 + n
        (leaving → fails .notPresent 0) ∧ (¬ leaving → barred → fails .protection 0) ∧
        (¬ leaving → ¬ barred → wrong → fails .pageType 0) ∧ (¬ leaving → ¬ barred → ¬ wrong → beyond → fails .appendBeyond 0) ∧
        (¬ leaving → ¬ barred → ¬ wrong → ¬ beyond → s.lost pa n = true → fails .dataLost 0) ∧
        (¬ leaving → ¬ barred → ¬ wrong → ¬ beyond → s.lost pa n = false →
          ∃ g, check s ag acc a n n = .ok { loc := .gen pa kind (x / 65536 % 4), gen := g, leaf := e })))

/-- R67 R234 R241 R242: stores write their bytes; a load, a store or an AMO that fails its checks takes the first fault, in the order of R67
(DATA-LOST last: the model's log entries 73 and 63). -/
def Obligations.StoresWriteTheirBytesOrLoadsAndStoresFault : Prop :=
  StoresWriteTheirBytes ∧ LoadsAndStoresTakeTheFirstFault ∧ AddressesFaultInOrder

/-- The word that APPMARK returns of a page: MARK, TAIL and the state (07 R110). -/
def Sys2Proof.Claim.markWord (p : AppPage) : Word := BitVec.ofNat 64 (p.mark + p.tail * 2 ^ 32 + (match p.state with
  | .open_ => 0
  | .sealing => 1
  | .sealed_ => 2
  | .releasing => 3) * 2 ^ 62)

/-- The functions of R241 of the old value, s[B] and, for AMOCAS, s[B + 1]; whether the pair is read. -/
def Sys2Proof.Claim.amoRules : List ((SReg → SReg → SReg → Order → Scope → Instr) × Bool × (Word → Word → Word → Int)) :=
  [(.amoswap, false, fun _ y _ => y.toNat), (.amoadd, false, fun x y _ => x.toNat + y.toNat),
   (.amoand, false, fun x y _ => (x &&& y).toNat), (.amoor, false, fun x y _ => (x ||| y).toNat),
   (.amomax, false, fun x y _ => max x.toInt y.toInt), (.amomin, false, fun x y _ => min x.toInt y.toInt),
   (.amomaxn, false, fun x y _ => max x.toNat y.toNat), (.amocas, true, fun x y z => if x = y then z.toNat else x.toNat)]

/-- R241: an AMO that meets its checks, with nothing left pending, completes, writes the function of the old value to its 8 bytes and the old value to s[D], and
changes no other byte and no other register. -/
def Obligations.AmosUpdateTheirWord : Prop :=
  ∀ p ∈ amoRules, ∀ (d a b : SReg) (o : Order) (sc : Scope) (s : State) (l : Place),
    Free s ([d, a, b] ++ if p.2.1 then [b + 1] else []) → s.later = false → s.me.ord.path = [] → s.me.ord.relFence = none →
    check (touch s s.agent (s.rd a)) s.agent .amo (s.rd a) 8 8 = .ok l →
    ∃ t, exec (p.1 d a b o sc) s = .next t ∧ Apart s t ∧ (∀ r, r ≠ d → t.rd r = s.rd r) ∧
      t.me = { s.me with regs := t.me.regs, pc := s.me.pc + 4, wait := {}, owed := []
                         ord := { s.me.ord with readSig := t.me.ord.readSig } } ∧
      (let old := BitVec.ofNat 64 (numberAt s l.loc 8)
       (d ≠ 0 → t.rd d = old) ∧ Stored s t l.loc 8 (BitVec.ofInt 64 (p.2.2 old (s.rd b) (s.rd (b + 1)))).toNat)

/-- The bytes of a barrier (08 R130). -/
def Sys2Proof.Claim.barrierWord (b : Barrier) : Nat :=
  (b.bal % (2 ^ 32 : Nat)).toNat + b.quota * 2 ^ 32 + b.due * 2 ^ 48 + b.gen * 2 ^ 64 + b.lost.toNat * 2 ^ 94 + b.broken.toNat * 2 ^ 95
    + b.ann * 2 ^ 96

/-- The barrier that 16 bytes hold. -/
def Sys2Proof.Claim.barrierIn (s : State) (l : Loc) : Barrier :=
  let x := numberAt s l 16
  { bal := sx 32 x, quota := x / 2 ^ 32 % 2 ^ 16, due := x / 2 ^ 48 % 2 ^ 16, gen := x / 2 ^ 64 % 2 ^ 30, lost := x / 2 ^ 94 % 2 == 1,
    broken := x / 2 ^ 95 % 2 == 1, ann := x / 2 ^ 96 }

/-- The completion test of R131: with DUE and BAL at 0 the phase ends; with DUE at 0 and BAL below it the barrier is broken. -/
def Sys2Proof.Claim.phaseTest (b : Barrier) : Barrier :=
  if b.due = 0 ∧ b.bal < 0 then { b with broken := true }
  else if b.due = 0 ∧ b.bal = 0 then { b with gen := (b.gen + 1) % 2 ^ 30, ann := 0, due := b.quota }
  else b

/-- What an event makes of a barrier (R131 R134). -/
def Sys2Proof.Claim.afterEvent (x : Barrier) : BarrierEvent → Barrier
  | .init n => { bal := 0, quota := n, due := n, gen := 0, lost := false, broken := false, ann := 0 }
  | .expect n => if x.broken then x else if x.due = 0 ∨ 2 ^ 31 ≤ x.ann + n then { x with broken := true }
    else phaseTest { x with bal := x.bal + n, ann := x.ann + n, due := x.due - 1 }
  | .arrive => if x.broken then x else if x.due = 0 then { x with broken := true } else phaseTest { x with due := x.due - 1 }
  | .land n => if x.broken then x else if x.bal - n < -2 ^ 31 then { x with broken := true } else phaseTest { x with bal := x.bal - n }
  | .lose => { x with lost := true, broken := true }

/-- The state after a word that has put one access behind the strand's waiting ones, and has changed no byte. -/
def Sys2Proof.Claim.WaitsWith (s : State) (i : Instr) (p : PendAccess → Prop) : Prop :=
  ∃ t x, exec i s = .next t ∧ (∀ b, byteAt t b = byteAt s b) ∧ p x ∧
    t.me = { (passed s).me with ord := { s.me.ord with path := s.me.ord.path ++ [x] } }

/-- The AMOs with the function that a waiting one holds. -/
def Sys2Proof.Claim.amoForms : List ((SReg → SReg → SReg → Order → Scope → Instr) × RemoteAmo) :=
  [(.amoswap, .swap), (.amoadd, .add), (.amoand, .and), (.amoor, .or), (.amomax, .max), (.amomin, .min), (.amomaxn, .maxn),
   (.amocas, .cas)]

/-- R275 R277 R279: a plain load or store, an LDO or LDOW without acquire, a STO or STOW, an AMO without acquire, of a NORMAL page, a DEVICE page or
scratchpad, or an event at a barrier, whose work is left pending stands behind the strand's waiting accesses and changes no byte and no
register, as a release when it is one (the model's log entry 5). -/
def Sys2Proof.Claim.PlainAccessesWait : Prop :=
  ∀ (d a : SReg) (r : ReqType) (i : BitVec 10) (l : Place) (s : State), Free s [d, a] → s.later = true →
    (∀ pa ty g, l.loc = .gen pa ty g → ty = .normal ∨ ty = .device) →
    (∀ p ∈ storeRules, s.me.ord.relFence = none →
      check (touch s s.agent (scaled s a i p.2)) s.agent .store (scaled s a i p.2) p.2 p.2 = .ok l →
      WaitsWith s (p.1 d a r i) fun x => x.loc = l.loc ∧ x.load = none ∧ x.bar = none ∧ x.rel = none ∧ x.own = false ∧ x.rt = r ∧
        x.data.length = p.2 ∧ natOfBytes x.data = (s.rd d).toNat % 256 ^ p.2) ∧
    (∀ p ∈ loadRules,
      check (touch s s.agent (scaled s a i p.2.1)) s.agent .load (scaled s a i p.2.1) p.2.1 p.2.1 = .ok l →
      WaitsWith s (p.1 d a r i) fun x => x.loc = l.loc ∧ x.rt = r ∧ x.amo = none ∧ x.mark = none ∧ x.bar = none ∧ x.rel = none ∧ x.own = false ∧
        ∃ m, x.load = some m ∧ m.reg = d ∧ m.size = p.2.1 ∧ ∀ n, (if m.signed then sx (8 * m.size) n else (n : Int)) = p.2.2 n) ∧
    ∀ (b : SReg) (sc : Scope), s.me.ord.relFence = none → Free s [b, b + 1] →
      (∀ p ∈ [(Instr.ldo d a .rlx sc, 8), (.ldow d a .rlx sc, 4)],
        check (touch s s.agent (s.rd a)) s.agent .load (s.rd a) p.2 p.2 = .ok l →
        WaitsWith s p.1 fun x => x.loc = l.loc ∧ x.load = some ⟨d, p.2, false⟩ ∧ x.amo = none ∧ x.mark = none ∧ x.bar = none ∧
          x.rel = none ∧ x.own = false) ∧
      (∀ o ∈ [Order.rlx, .rel], ∀ p ∈ [(Instr.sto a d o sc, 8), (.stow a d o sc, 4)],
        check (touch s s.agent (s.rd a)) s.agent .store (s.rd a) p.2 p.2 = .ok l →
        WaitsWith s p.1 fun x => x.loc = l.loc ∧ x.load = none ∧ x.bar = none ∧ (x.rel = if o = .rel then some sc else none) ∧
          x.own = decide (o = .rel) ∧ x.rt = .uc ∧ x.data.length = p.2 ∧ natOfBytes x.data = (s.rd d).toNat % 256 ^ p.2) ∧
      (∀ o ∈ [Order.rlx, .rel], ∀ p ∈ amoForms, check (touch s s.agent (s.rd a)) s.agent .amo (s.rd a) 8 8 = .ok l →
        WaitsWith s (p.1 d a b o sc) fun x => x.loc = l.loc ∧ x.load = some ⟨d, 8, false⟩ ∧ x.mark = none ∧ x.bar = none ∧
          (x.rel = if o = .rel then some sc else none) ∧ x.own = decide (o = .rel) ∧ x.amo = some (p.2, s.rd b, if p.2 = .cas then s.rd (b + 1) else 0)) ∧
      ∀ c o, s.me.fliven = false → barrierTrap s s.agent (s.rd a) = .ok (c, o) →
        (let n := (s.rd b).toNat
         let own := some (if c = s.myCore then Scope.core else .cluster)
         ∀ p ∈ [(Instr.abinit a b, BarrierEvent.init n, none, decide (1 ≤ n ∧ n ≤ 65535)),
             (.abexpect a b, .expect n, own, decide (n < 2 ^ 31)), (.abarrive a, .arrive, own, true)], p.2.2.2 = true →
           WaitsWith s p.1 fun x => x.loc = .spad s.me.id.gang c o ∧ x.load = none ∧ x.bar = some p.2.1 ∧ x.rel = p.2.2.1 ∧
             x.own = p.2.2.1.isSome)

/-- The function of a waiting AMO on the old value and its two operands (R241). -/
def Sys2Proof.Claim.amoValue (f : RemoteAmo) (old x y : Word) : Int :=
  match f with
  | .swap => x.toNat
  | .add => old.toNat + x.toNat
  | .and => (old &&& x).toNat
  | .or => (old ||| x).toNat
  | .max => max old.toInt x.toInt
  | .min => min old.toInt x.toInt
  | .maxn => max old.toNat x.toNat
  | .minn => min old.toNat x.toNat
  | .cas => if old = x then y.toNat else old.toNat

/-- A waiting access comes after an earlier one of its strand: a release of its own after every one, a store, an AMO or a barrier's event
after one with a release fence between them, an access to a DEVICE page after those to DEVICE pages, any after one that names some of its
bytes (05 R70, 13 R243, 15 R275 R279, 16 R291). -/
def Sys2Proof.Claim.ComesAfter (x y : PendAccess) : Prop :=
  x.own = true ∨ ((x.load = none ∨ x.amo ≠ none) ∧ x.fences < y.fences) ∨ y.overlaps x.loc x.size = true ∨
  (∃ a g, x.loc = .gen a .device g) ∧ ∃ a g, y.loc = .gen a .device g

/-- R70 R275 R277 R279 R284: a step performs any waiting access of a strand, a store at its bytes, a load or an APPMARK to its register, an AMO at
both, or an event at its barrier, but none before an earlier one that it comes after; a word that names the register of a waiting load
waits for it. -/
def Sys2Proof.Claim.WaitingAccessesArePerformed : Prop :=
  (∀ (s : State) (x : PendAccess) (n : Nat) (ms : List Move), s.agenda = .perform s.key n :: ms → Unasked s →
    s.me.ord.path[n]? = some x →
    ((∀ y ∈ s.me.ord.path.take n, ¬ ComesAfter x y) → lostPage s x.loc = false →
      (∀ g c o, x.loc = .spad g c o → (s.gang? g).isSome) → (∀ n, x.bar = some (.init n) → n < 2 ^ 16) →
      ∃ t, step s = .next t ∧ t.me.ord.path = s.me.ord.path.eraseIdx n ∧ t.agenda = ms ∧ t.me.pc = s.me.pc ∧
        (∀ e g c o, x.bar = some e → x.load = none → x.loc = .spad g c o →
          (∀ r, t.rd r = s.rd r) ∧ Stored s t x.loc 16 (barrierWord (afterEvent (barrierIn s x.loc) e))) ∧
        (x.load = none → x.bar = none → (∀ r, t.rd r = s.rd r) ∧ ∀ pa ty g, x.loc = .gen pa ty g → ∀ a, t.mem.byte a =
          if pa ≤ a ∧ a < pa + x.data.length then (x.data[a - pa]?).getD 0 else s.mem.byte a) ∧
        (∀ m, x.load = some m → x.bar = none → x.mark = none → x.amo = none → (∀ b, byteAt t b = byteAt s b) ∧ (∀ r, r ≠ m.reg → t.rd r = s.rd r) ∧
          (m.reg ≠ 0 → t.rd m.reg = BitVec.ofInt 64 (if m.signed then sx (8 * m.size) (numberSeen s x.rt x.loc m.size)
            else numberSeen s x.rt x.loc m.size))) ∧
        (∀ d f, x.load = some ⟨d, 8, false⟩ → x.bar = none → x.mark = some f → (∀ b, byteAt t b = byteAt s b) ∧ (∀ r, r ≠ d → t.rd r = s.rd r) ∧
          (d ≠ 0 → t.rd d = markWord (s.app f))) ∧
        ∀ d f y z, x.load = some ⟨d, 8, false⟩ → x.bar = none → x.mark = none → x.amo = some (f, y, z) → (∀ r, r ≠ d → t.rd r = s.rd r) ∧
          (let old := BitVec.ofNat 64 (numberAt s x.loc 8)
           (d ≠ 0 → t.rd d = old) ∧ Stored s t x.loc 8 (BitVec.ofInt 64 (amoValue f old y z)).toNat)) ∧
    ((∃ y ∈ s.me.ord.path.take n, ComesAfter x y) →
      ∃ t, step s = .next t ∧ t.me = s.me ∧ t.mem = s.mem ∧ t.agenda = ms)) ∧
  ∀ (d a b : SReg) (s : State) (x : PendAccess) (m : LoadDest), s.later = true → x ∈ s.me.ord.path → x.load = some m → m.reg ≠ 0 →
    m.reg = d ∨ m.reg = a ∨ m.reg = b → exec (.add d a b) s = .next s

/-- R243 R244 R280 R285: FENCE completes with the release fence it sets; one with the release order alone performs nothing and stands
behind each waiting access, whatever waits; and an acquire leaves in its core's L1 no untracked copy of a line that a release the last
read met covers, where the scope of each includes the other's agent; VDRAIN completes when no vector memory entry and no reduction message
of the strand is outstanding, with its scalar and vector stores performed. That FENCE.ar and VDRAIN leave no access of the strand waiting
at any scope, CORE included, is the model's reading: an access is performed at its home, which is every scope (log entry 42). -/
def Sys2Proof.Claim.FenceAndVdrainComplete : Prop :=
  (∀ (o : Order) (sc : Scope) (s : State), s.me.ord.path = [] → s.me.ord.relFence = none →
    ∃ t, exec (.fence o sc) s = .next t ∧ Apart s t ∧ t.mem = s.mem ∧ t.gangs = s.gangs ∧
      t.me = { (passed s).me with ord := { s.me.ord with relFence := if o = .rel ∨ o = .ar then some sc else none } } ∧
      (o = .acq ∨ o = .ar → sc ≠ .core → ∀ c, s.agent.core = some c →
        ∀ x ∈ (t.core c).l1, (∃ r ∈ s.me.ord.readSig, scopeIncludes r.scope r.unit c = true ∧ scopeIncludes sc c r.unit = true ∧
          ∃ y ∈ r.lines, y.line = x.1 ∧ scopeIncludes y.reach y.unit c = true) → x.2.own = true)) ∧
  (∀ (sc : Scope) (s : State) (o : Order), o = .ar → ∃ t, exec (.fence o sc) s = .next t ∧ t.me.ord.path = []) ∧
  (∀ (sc : Scope) (s : State), ∃ r, (s.me.ord.relFence = none → r = sc) ∧ exec (.fence .rel sc) s = .next { passed s with
    me := { (passed s).me with ord := { s.me.ord with
      relFence := some r, path := s.me.ord.path.map fun p => { p with fences := p.fences + 1 } } } }) ∧
  ∀ (sc : Scope) (s : State), NoLoads s → (∀ e ∈ entriesOf s.me.queue, drainsWith e.instr = false) →
    (∀ c ∈ s.cores, ∀ m ∈ c.2.redMsgs, m.strand ≠ s.me.sid) →
    ∃ t, exec (.vdrain sc) s = .next t ∧ t.me.ord.path = [] ∧ (∀ v ∈ (t.core s.myCore).stores, v.strand ≠ s.me.sid) ∧
      t.me.pc = s.me.pc + 4 ∧ ∀ r, t.rd r = s.rd r

/-- R275 R277 R279: accesses wait and are performed in no fixed order but that of their bytes, of DEVICE pages and of releases. -/
def Sys2Proof.Claim.PlainAccessesAreUnordered : Prop := PlainAccessesWait ∧ WaitingAccessesArePerformed

/-- R243 R244 R277 R279: relaxed accesses and releases wait and are performed (waiting: the model's log entry 5), and FENCE and VDRAIN
complete (that they leave nothing waiting at any scope: the model's log entry 42). How an event counts beyond a barrier's fields, and that
a loss marks a broken barrier, are the model's readings (log entry 67). -/
def Obligations.WaitingAccessesFenceAndVdrain : Prop := PlainAccessesAreUnordered ∧ FenceAndVdrainComplete

/-- The decided value of a cell: of cell i of the ONCE page in a frame. -/
def Sys2Proof.Claim.cellAt (s : State) (f i : Nat) : Option Word := (Map.get? s.onces f).bind fun o => Map.get? o.cells i

/-- The strand has written a register pair and goes on; nothing else of it changed but the memory order's note of the read and a release
fence met, and no byte of memory or scratchpad. -/
structure Sys2Proof.Claim.PairFrame (s t : State) (d : SReg) (x y : Word) : Prop where
  first : d ≠ 0 → t.rd d = x
  second : d + 1 ≠ 0 → t.rd (d + 1) = y
  regs : ∀ r, r ≠ d → r ≠ d + 1 → t.rd r = s.rd r
  me : t.me = { s.me with regs := t.me.regs, pc := s.me.pc + 4, wait := {}, owed := [], ord := t.me.ord }
  rest : Apart s t ∧ t.mem = s.mem ∧ t.gangs = s.gangs

/-- The value in the die's copy of the cell at a place, when its tag is the generation of the translation (R117). -/
def Sys2Proof.Claim.copyOf (s : State) (l : Place) : Option Word :=
  (Map.get? (s.die s.agent.die).cells (l.loc.pa / 16)).bind fun c => if c.gen = l.gen then some c.val else none

/-- R116 R117 R118 R245: PROPOSE at an undecided cell wins and decides it, at a decided one it answers the winner, and with an old
generation or during a clear STALE; OREAD answers the value, none, or STALE and decides nothing. A copy whose tag is the translation's
generation answers in the home's place. No other cell changes. -/
def Obligations.DecideOnceCellsAnswer : Prop :=
  ∀ (d a b : SReg) (sc : Scope) (s u : State) (l : Place), s.me.ord.path = [] → u = touch s s.agent (s.rd a) →
    (let f := l.loc.pa / 0x10000
     let i := l.loc.pa % 0x10000 / 16
     let live := (Map.get? u.onces f).any fun o => !o.clearing && o.gen == l.gen
     (Free s [d, d + 1, a, b] → check u s.agent (.onceOp true) (s.rd a) 16 16 = .ok l →
      ∃ t, exec (.propose d a b sc) s = .next t ∧
        (match copyOf u l, live, cellAt u f i with
         | some v, _, _ => PairFrame s t d v 1
         | none, false, _ => PairFrame s t d 0 2
         | none, true, some v => PairFrame s t d v 1
         | none, true, none => PairFrame s t d (s.rd b) 0) ∧
        ∀ g j, cellAt t g j = if copyOf u l = none ∧ live ∧ g = f ∧ j = i ∧ (cellAt u f i).isNone then some (s.rd b) else cellAt u g j) ∧
     (Free s [d, d + 1, a] → check u s.agent (.onceOp false) (s.rd a) 16 16 = .ok l →
      ∃ t, exec (.oread d a sc) s = .next t ∧
        (match copyOf u l, live, cellAt u f i with
         | some v, _, _ => PairFrame s t d v 1
         | none, false, _ => PairFrame s t d 0 2
         | none, true, some v => PairFrame s t d v 1
         | none, true, none => PairFrame s t d 0 0) ∧
        ∀ g j, cellAt t g j = cellAt u g j))

/-! The control thread (11_ref_control). -/

/-- R27 R197 R202 R203: NOP has no effect; YIELD goes on at the next word and lets every other ready strand of the core go first, none
that sleeps in a wait, and no other; CLK reads the clock of the core; WAITUNTIL goes on once NOW has reached its time, and sleeps where it
stands before. -/
def Obligations.IssueAndTimeComplete : Prop :=
  ∀ s : State, exec .nop s = .next (passed s) ∧
    (∃ l, exec .yieldTurn s = .next { passed s with me := { (passed s).me with owed := l } } ∧
      ∀ k t, s.me.fliven = false → Map.get? s.others k = some t →
        (k ∈ l ↔ k ≠ s.key ∧ k / 4 = s.key / 4 ∧ t.status = .ready ∧ t.wait.since = none ∧ t.sleepsInLanes = false ∧
          t.fliven = false)) ∧
    (∀ d, Free s [d] → exec (.clk d) s =
      .next (passed (s.wr d (BitVec.ofNat 64 (s.core (if s.me.fliven then s.key else s.key / 4)).clk)))) ∧
    ∀ a, Free s [a] →
      ((s.rd a).toNat ≤ s.now → exec (.waituntil a) s = .next (passed s)) ∧
      (s.now < (s.rd a).toNat → s.me.fliven = false → ∃ t, exec (.waituntil a) s = .next t ∧ t.me.wait.since.isSome ∧
        t = { s with me := { s.me with wait := t.me.wait } })

/-- The fields of a 64-byte fault record that do not depend on where the save space put the context (25 R343). -/
structure Sys2Proof.Claim.Records (r : HeldRec) (s : State) (kind word : Nat) (f : Trap) : Prop where
  core : r.core = s.myCore
  length : r.bytes.length = 64
  handle : blk r.bytes 0 8 = handleOf s.key s.me.id.pid ((s.me.stopSeq + 1) % 2 ^ 32) % 2 ^ 64
  cause : blk r.bytes 8 1 = f.cause.code ∧ blk r.bytes 9 1 = f.sub % 256 ∧ blk r.bytes 10 1 = kind % 256
  level : blk r.bytes 11 1 = s.me.level.num + 4 * s.me.pd.toNat + 8 * s.me.fd.toNat
  place : blk r.bytes 16 8 = s.me.pc.toNat ∧ blk r.bytes 24 8 = f.addr.toNat ∧ blk r.bytes 32 4 = word % 2 ^ 32
  tail : blk r.bytes 48 8 = f.info.toNat ∧ blk r.bytes 56 8 = s.now % 2 ^ 64

/-- The fields of a record that memory holds. -/
def Sys2Proof.Claim.recordIn (s : State) (pa : Nat) : List Byte := s.mem.read pa 64

/-- R199 R310 R343 R345: a compute strand that takes an exception stops: its stop sequence advances, its PC is that of the word, of the
next word after TRAP and BREAK, its registers, masks and level stay; its record is written to the slot that FRQTAIL names, FRQTAIL
advances, and that wakes the Fliven strands of its partition from WAITUNTIL; no other strand changes. With the record queue full the
record waits behind those of its partition. -/
def Obligations.ComputeStrandsStop : Prop :=
  ∀ (kind word : Nat) (f : Trap) (s : State), s.me.fliven = false →
    let u := takeTrap kind word f s
    ((s.part s.me.id.pid).held = [] → s.me.queue = [] →
      (∀ g, s.gang? s.me.id.gang = some g → g.ctx = 0 → (s.part s.me.id.pid).savesize = 0) →
      (let m := { s.me.stop kind f with queue := [] }
       let w := saveStrand { s with me := m } m
       ∀ l, frqSlot w s.me.id.pid = .ok (some l) →
         (u.part s.me.id.pid).held = [] ∧ (u.part s.me.id.pid).frqtail = ((s.part s.me.id.pid).frqtail + 1) % 2 ^ 32 ∧
         u.others = (s.others.map fun q => (q.1, wokenBy s.me.id.pid q.2)) ∧
         Records { core := s.myCore, bytes := recordIn u l.pa } s kind word f ∧
         ∀ a, a < l.pa ∨ l.pa + 64 ≤ a → u.mem.byte a = w.mem.byte a)) ∧
    u.me.status = .stopped ∧ u.me.stopped = some f ∧ u.me.stopKind = kind ∧ u.me.stopSeq = (s.me.stopSeq + 1) % 2 ^ 32 ∧
    u.me.pc = (if f.cause = .trap ∨ f.cause = .break_ then s.me.pc + 4 else s.me.pc) ∧ u.me.level = s.me.level ∧
    (∀ r, u.rd r = s.rd r) ∧ u.me.v = s.me.v ∧ u.me.fcsr = s.me.fcsr ∧ u.me.efc = s.me.efc ∧ OthersWoken s.me.id.pid s u ∧
    ((s.part s.me.id.pid).frqsize ≤ ((s.part s.me.id.pid).frqtail + 2 ^ 32 - (s.part s.me.id.pid).frqhead) % 2 ^ 32 →
      ∃ r, (u.part s.me.id.pid).held = (s.part s.me.id.pid).held ++ [r] ∧ Records r s kind word f ∧ u.others = s.others)

/-- R309 R312: a Fliven strand that takes an exception saves its PC in EPC, cause and subcode in ECAUSE, the word of a decode fault or
else the address in EVAL, its level in ELEVEL, and goes on at TVEC at level F, with nothing else changed; a second one before its handler
has executed MTS to EPC stops the core, and the watchdog resets it and posts the cause. ERET takes the level of ELEVEL and jumps to EPC; a
fault in that jump is such a second fault. That EVAL holds the word for ILLEGAL and PRIVILEGE and the address for every other cause is the
model's reading of R308 (log entry 18). That a core which the watchdog resets starts at the firmware's entry point, and the form of the
entry on the management log, are the model's choices (log entries 8 and 48). -/
def Obligations.FlivenStrandsTrapAndReturn : Prop :=
  ∀ s : State, s.me.fliven = true →
    (∀ (kind word : Nat) (f : Trap), s.me.fl.trapped = false → takeTrap kind word f s = { s with me := { s.me with
      pc := s.me.fl.tvec, level := .f, wait := {}, owed := []
      fl := { s.me.fl with epc := s.me.pc, ecause := BitVec.ofNat 64 (f.cause.code + 256 * f.sub), elevel := s.me.level.num,
                           faultVal := if f.cause = .illegal ∨ f.cause = .privilege then BitVec.ofNat 64 word else f.addr
                           trapped := true } } }) ∧
    (∀ (kind word : Nat) (f : Trap), s.me.fl.trapped = true → takeTrap kind word f s = { s with me := { s.me with
      status := .stopped, wait := {}, owed := [], fl := { s.me.fl with dead := some f.cause.code } } }) ∧
    (∀ d : SReg, Idle s → s.me.level = .f → ∃ t, exec (.mts d 0x100) s = .next t ∧ t.me.pc = s.me.pc + 4 ∧
      t.me.fl = { s.me.fl with epc := s.rd d, trapped := false }) ∧
    (∀ k c, s.key = 1024 + k → s.me.fl.dead = some c → exec (.flivenWatchdogReset k) s =
      .next { s with me := { Strand.flivenReset k with pc := s.fwEntry }, mgmtLog := s.mgmtLog ++ [(2, c)] }) ∧
    (Idle s → s.me.level = .f → s.me.fl.epc.toNat < 2 ^ 48 → s.me.fl.epc.toNat % 4 = 0 → exec .eret s =
      .next { s with me := { s.me with pc := s.me.fl.epc, level := Level.ofNum s.me.fl.elevel, wait := {}, owed := [] } }) ∧
    (Idle s → s.me.level = .f → 2 ^ 48 ≤ s.me.fl.epc.toNat ∨ s.me.fl.epc.toNat % 4 ≠ 0 → exec .eret s =
      .next { s with me := { s.me with
        level := Level.ofNum s.me.fl.elevel, status := .stopped, wait := {}, owed := []
        fl := { s.me.fl with trapped := true, dead := some (if 2 ^ 48 ≤ s.me.fl.epc.toNat then Cause.protection.code
          else Cause.misalign.code) } } })

/-- The strand keeps the fault of the word that it has met, while older entries or loads are not done (02 R14). -/
def Sys2Proof.Claim.keeps (s : State) (word : Nat) (f : Trap) : State :=
  { s with me := { s.me with wait := { laneSince := s.me.wait.laneSince, fault := some { word := word, trap := f } } } }

/-- R14 R199: with no entry queued TRAP takes TRAP with its code in the record and BREAK takes BREAK, precise at the PC, and a compute strand stops
with the next word as the place to go on from. With entries queued, the fault is kept and reported once they have ended, and one of them
that faults is reported instead; when the agenda leaves them pending, which is the model's way to let engines work later (log entry 3),
the strand stays at the word with the fault kept, as it stays at an EXIT. That the fault is kept as it was found is the model's reading
(log entry 78). -/
def Sys2Proof.Claim.TrapAndBreakStop : Prop :=
  ∀ (code : BitVec 12) (s : State),
    (Idle s →
      exec (.trap code) s = .next (takeTrap 0 (encode (.trap code)).toNat { cause := .trap, info := BitVec.ofNat 64 code.toNat } s) ∧
      exec .brk s = .next (takeTrap 0 (encode .brk).toNat { cause := .break_ } s)) ∧
    (Idle s → s.me.fliven = false → ∀ i ∈ [Instr.trap code, .brk], ∃ t, exec i s = .next t ∧ t.me.status = .stopped ∧
      t.me.stopKind = 0 ∧ t.me.pc = s.me.pc + 4) ∧
    (¬ Idle s → (s.later = true → exec .exit s = .next s) ∧
      (s.later = false → (runQueue (drainLoads s)).me.status = .stopped → exec .exit s = .next (runQueue (drainLoads s)))) ∧
    (¬ Idle s → ∀ p ∈ [(Instr.trap code, ({ cause := .trap, info := BitVec.ofNat 64 code.toNat } : Trap)), (.brk, { cause := .break_ })],
      (let k := keeps s (encode p.1).toNat p.2
       let u := runQueue (drainLoads k)
       (s.later = true → exec p.1 s = .next k) ∧ (s.later = false → u.me.status = .stopped → exec p.1 s = .next u) ∧
       (s.later = false → u.me.status ≠ .stopped → Idle u → exec p.1 s = .next (takeTrap 0 (encode p.1).toNat p.2 u))))

/-- The words of R208 and R210 to R212 with two sources, with the tags A may have and whether the old destination is read. -/
def Sys2Proof.Claim.twoSourceWords (m k : MReg) (d a : VReg) (b : Src) : List (Instr × List Tag × Bool) :=
  (integerRules.map fun p => (p.1 m d a b, intTags, p.2.1)) ++ (floatRules.map fun p => (p.1 m d a b, floatTags, p.2.1)) ++
  (compareRules.map fun p => (p.1 m k a b, intTags, false)) ++ floatCompareRules.map fun p => (p.1 m k a b, floatTags, false)

/-- R64 R23 R208 R210 R211 R212 R217 R220 R238 R239 R240 R257: with no bound source, a word whose tags are not those its rule takes raises FORMAT, and one
whose tags suit but whose VL elements do not lie in the lane groups held raises VL-RANGE, as MROW does for a VL that is no multiple of
the depth. (VMOV takes every tag.) -/
def Sys2Proof.Claim.TagsThenLengthsFault : Prop :=
  (∀ (m k : MReg) (d a : VReg) (b : Src) (s u : State), ∀ p ∈ twoSourceWords m k d a b, Enters p.1 false s u →
    popSlots s.me.v (entryFor s p.1) = [] →
    (let t := (reg u a).tag
     let suits := t ∈ p.2.1 ∧ secondTagged u b t ∧ (p.2.2 = true → (reg u d).tag = t)
     (¬ suits → ∃ r, exec p.1 s = .next r ∧ Refused u r (entryFor s p.1) .format) ∧
     (suits → ¬ fits u t.width → ∃ r, exec p.1 s = .next r ∧ Refused u r (entryFor s p.1) .vlRange))) ∧
  (∀ (m : MReg) (d a : VReg) (s u : State),
    ∀ p ∈ ((unaryRules.take 5).map fun p => (p.1 m d a, p.2.1)) ++ floatUnaryRules.map fun p => (p.1 m d a, floatTags), Enters p.1 false s u →
    popSlots s.me.v (entryFor s p.1) = [] →
    ((reg u a).tag ∉ p.2 → ∃ r, exec p.1 s = .next r ∧ Refused u r (entryFor s p.1) .format) ∧
    ((reg u a).tag ∈ p.2 → ¬ fits u (reg u a).tag.width → ∃ r, exec p.1 s = .next r ∧ Refused u r (entryFor s p.1) .vlRange)) ∧
  (∀ (m : MReg) (v bv : VReg) (a : SReg) (ty : LoadType) (o : RedOp) (s u : State),
    ∀ p ∈ [(Instr.vldx m v a bv ty, True, ty.tag.width), (.vldb m v a bv ty, True, ty.tag.width),
        (.vstx m v a bv, (reg u v).tag ≠ .e2m1, (reg u v).tag.width), (.vredm m v a bv o, reducible o (reg u v).tag, (reg u v).tag.width)],
    Enters p.1 false s u → popSlots s.me.v (entryFor s p.1) = [] →
    (let suits := (reg u bv).tag ∈ offsetTags ∧ p.2.1
     (¬ suits → ∃ r, exec p.1 s = .next r ∧ Refused u r (entryFor s p.1) .format) ∧
     (suits → ¬ (fits u p.2.2 ∧ fits u 32) → ∃ r, exec p.1 s = .next r ∧ Refused u r (entryFor s p.1) .vlRange))) ∧
  ∀ (d : TReg) (a : VReg) (b : SReg) (s u : State), Enters (.mrow d a b) true s u →
    popSlots s.me.v (entryFor s (.mrow d a b)) = [] →
    (let t := (u.core u.myCore).tile d
     let n := u.me.v.vl / t.pitch
     let long := ¬ (fits u (reg u a).tag.width ∧ u.me.v.vl % t.pitch = 0 ∧ (n = 0 ∨ (s.rd b).toNat + n ≤ 256))
     (pairAccepted (reg u a).tag t.tag = false → ∃ r, exec (.mrow d a b) s = .next r ∧ Refused u r (entryFor s (.mrow d a b)) .format) ∧
     (pairAccepted (reg u a).tag t.tag = true → long →
       ∃ r, exec (.mrow d a b) s = .next r ∧ Refused u r (entryFor s (.mrow d a b)) .vlRange))

/-- R40 R139: a word of R208 or R210 whose destination a stream slot binds, or one of whose sources is bound to a slot with fewer than VL
positions left, raises STREAM before anything else of it is looked at. That it comes before FORMAT and VL-RANGE, as R256 says of the words of
the engine format, is the model's reading of R206 (log entry 73). -/
def Sys2Proof.Claim.BindingsFault : Prop :=
  ∀ (m : MReg) (d a : VReg) (b : Src) (s : State) (q : Nat),
    ∀ i ∈ (integerRules.map fun p => p.1 m d a b) ++ floatRules.map fun p => p.1 m d a b, Calm s → decodeTrap s i false = none →
    s.me.v.vstart = 0 → (∀ g ∈ s.me.v.groups, ∀ x, (s.core s.myCore).groups[g]? = some x → x.asleep = false) →
    (let x := s.me.v.stream q
     q < 4 → x.bound = true → (∀ k, k < 4 → k ≠ q → (s.me.v.stream k).bound = true → (s.me.v.stream k).slot ≠ x.slot) →
     x.slot = place s d ∨ (x.slot = place s a ∨ ∃ r, b = .v r ∧ x.slot = place s r) ∧ x.total < x.pos + s.me.v.vl →
     ∃ r, exec i s = .next r ∧ Refused (pushEntry s (entryFor s i)) r (entryFor s i) .stream)

/-- R42 R210 R347, 12 R207: a float word that raises a flag whose trap is enabled writes every result and ORs its flags into FCSR first, then stops for
FP at VCP, with VSTART at VL: nothing of it is left to do. -/
def Sys2Proof.Claim.FpTrapsAfterTheResults : Prop :=
  ∀ p ∈ floatRules, ∀ (m : MReg) (d a : VReg) (b : Src) (s u : State), Enters (p.1 m d a b) false s u →
    (reg u a).tag ∈ floatTags → secondTagged u b (reg u a).tag → (p.2.1 = true → (reg u d).tag = (reg u a).tag) →
    fits u (reg u a).tag.width → u.me.fd = false →
    (let r := fun i => p.2.2 (reg u a).tag (rmOf u.me.fcsr) ((reg u a).elem (reg u a).tag.width i)
        (second s u b (reg u a).tag i) ((reg u d).elem (reg u a).tag.width i)
     (∃ j i, 3 ≤ j ∧ j ≤ 7 ∧ governs u m i = true ∧ (r i).2.testBit j = true ∧ u.me.fcsr.getLsbD (j + 5) = true) →
     ∃ t, exec (p.1 m d a b) s = .next t ∧ StopsAtVcp u t (entryFor s (p.1 m d a b)) { cause := .fp } ∧
       t.me.v.vstart = u.me.v.vl ∧ t.me.v.masks = u.me.v.masks ∧ t.me.efc = u.me.efc ∧
       Wrote u t d (reg u a).tag.width (reg u a).tag (governs u m) (fun i => (r i).1) ∧ raised u t (governs u m) fun i => (r i).2)

/-- R14 R199, and R40 R42 R64: TRAP and BREAK, and the stops of the vector words for FORMAT, VL-RANGE, STREAM and FP (that a fault is kept as it was
found, and STREAM before FORMAT and VL-RANGE: the model's log entries 78 and 73). -/
def Obligations.WordsTakeTheirExceptions : Prop :=
  TrapAndBreakStop ∧ TagsThenLengthsFault ∧ BindingsFault ∧ FpTrapsAfterTheResults

/-- R25 R198: EXIT ends the strand, its lane groups become free and its registers are gone; that of the last strand of a gang ends the gang,
once. On a Fliven strand it only ends the strand. -/
def Obligations.ExitEndsTheStrand : Prop :=
  ∀ s : State, Idle s →
    (s.me.fliven = true → exec .exit s = .next { s with me := { s.me with status := .exited, wait := {}, owed := [] } }) ∧
    (s.me.fliven = false → ∃ t, exec .exit s = .next t ∧ t.me.status = .exited ∧ (∀ r, t.rd r = 0) ∧
      (∀ g ∈ s.me.v.groups, ∀ x, (t.core s.myCore).groups[g]? = some x → x.owner = none) ∧
      ∀ x l, s.gang? s.me.id.gang = some x → x.state ≠ .ended → Map.get? s.launches x.launch = some l →
        (∀ p ∈ s.others, p.2.fliven = true ∨ p.2.id.gang ≠ s.me.id.gang ∨ p.2.status = .exited ∨ p.2.status = .absent) →
        Map.get? t.launches x.launch = some { l with ended := l.ended + 1 })

/-- The 16 bytes of a gate entry admit a caller (22 R306). -/
structure Sys2Proof.Claim.Admits (b : List Byte) (lv : Level) : Prop where
  valid : blk b 8 1 = 5 ∧ blk b 9 1 < 4 ∧ blk b 11 5 = 0
  callers : blk b 10 1 / 4 % 4 * 4 = blk b 10 1 ∧ blk b 10 1 / 2 ^ lv.num % 2 = 1
  target : blk b 0 8 < 2 ^ 48 ∧ blk b 0 8 % 4 = 0

/-- R200 R201 R305 R306: GATE through an entry that admits the caller saves the return in GLINK and GLEVEL and goes on at the entry's address at
level L with the entry's mask mode; an entry that does not admit it raises GATE, as does a fault in translating the entry. GRET jumps
back to GLINK at the level of GLEVEL, with the mask mode cleared at level K; one that would raise the level, or is executed at level K,
raises PRIVILEGE, and a GLINK outside the generic space PROTECTION, else one that is not a multiple of 4 MISALIGN, naming no address
(the model's choice, log entry 18). Neither changes another register. -/
def Obligations.GatesEnterAndReturn : Prop :=
  (∀ (i : BitVec 12) (s u : State) (b : List Byte), s.me.fliven = false → Idle s → gateEntry s i.toNat = (u, .ok b) →
    Admits b s.me.level → s.me.ord.path = [] → (∀ g, s.gang? s.me.id.gang = some g → g.stopReq = none) →
    ∃ t, exec (.gate i) s = .next t ∧ Apart s t ∧ t.mem = s.mem ∧
      t.me = { s.me with glink := s.me.pc + 4, glevel := s.me.level, level := .l, pd := blk b 9 1 % 2 == 1,
                         fd := blk b 9 1 / 2 % 2 == 1, pc := BitVec.ofNat 64 (blk b 0 8), wait := {}, owed := [] }) ∧
  (∀ (i : BitVec 12) (s u : State), s.me.fliven = false → Idle s →
    (∀ b, gateEntry s i.toNat = (u, .ok b) → ¬ Admits b s.me.level →
      exec (.gate i) s = .next (takeTrap 0 (encode (.gate i)).toNat { cause := .gate } u)) ∧
    ∀ f, leafFor (touch s s.agent ((s.part s.me.part).gtbase + BitVec.ofNat 64 (16 * i.toNat))) s.agent
        ((s.part s.me.part).gtbase + BitVec.ofNat 64 (16 * i.toNat)).toNat = .error f →
      ∃ v, exec (.gate i) s = .next (takeTrap 0 (encode (.gate i)).toNat { cause := .gate } v) ∧ v.me = s.me ∧ v.mem = s.mem) ∧
  (∀ s : State, s.me.fliven = false → Idle s → s.me.level ≠ .k → s.me.level.num ≤ s.me.glevel.num →
    s.me.glink.toNat < 2 ^ 48 → s.me.glink.toNat % 4 = 0 → (∀ g, s.gang? s.me.id.gang = some g → g.stopReq = none) →
    exec .gret s = .next { s with me := { s.me with
      pc := s.me.glink, level := s.me.glevel, wait := {}, owed := []
      pd := s.me.pd && decide (s.me.glevel ≠ .k), fd := s.me.fd && decide (s.me.glevel ≠ .k) } }) ∧
  (∀ s : State, s.me.fliven = false → Idle s → s.me.level ≠ .k → s.me.level.num ≤ s.me.glevel.num →
    2 ^ 48 ≤ s.me.glink.toNat ∨ s.me.glink.toNat % 4 ≠ 0 → exec .gret s = .next (takeTrap 0 (encode .gret).toNat
      { cause := if 2 ^ 48 ≤ s.me.glink.toNat then .protection else .misalign } s)) ∧
  ∀ s : State, s.me.fliven = false → Idle s → s.me.level = .k ∨ s.me.glevel.num < s.me.level.num →
    exec .gret s = .next (takeTrap 0 (encode .gret).toNat { cause := .privilege } s)

/-- The grant of R19 for a length and a width code: lane groups held afterwards, elements (with the working groups of the core, 27 R365). -/
def Sys2Proof.Claim.grantFor (s : State) (avl code : Nat) : Nat × Nat :=
  let per := 2048 / (4 * 2 ^ code)
  let gs := (s.core s.myCore).groups
  let want := max s.me.id.floor (min (gs.filter fun g => !g.retired).length ((avl + per - 1) / per))
  let lg := if want < s.me.v.lg then want
    else s.me.v.lg + min (want - s.me.v.lg) (gs.filter fun g => g.owner.isNone && !g.retired).length
  let n := min avl (lg * per)
  (lg, if s.me.fcsr.getLsbD 16 ∧ 32 ≤ n then n - n % 32 else n)

/-- A grant has been taken: VL, VW and LG are the grant's, and of the strand only the named registers, the PC, the grant and
what leaves with lane groups changed; no byte of memory did. -/
structure Sys2Proof.Claim.Granted (s t : State) (avl code : Nat) (ds : List SReg) : Prop where
  grant : t.me.v.vl = (grantFor s avl code).2 ∧ t.me.v.vw = code ∧ t.me.v.lg = (grantFor s avl code).1
  regs : ∀ r, r ∉ ds → t.rd r = s.rd r
  kept : t.me.v.masks = s.me.v.masks ∧ t.me.v.wb = s.me.v.wb ∧ t.me.v.valc = s.me.v.valc ∧ t.me.v.streams = s.me.v.streams ∧
    t.me.fcsr = s.me.fcsr ∧ t.me.efc = s.me.efc ∧ t.me.status = s.me.status ∧ t.me.level = s.me.level
  rest : Apart s t ∧ t.mem = s.mem ∧ t.gangs = s.gangs

/-- No change of the held groups or of the allotment waits at the head of the queue: it takes effect there at once (02 R21). -/
def Sys2Proof.Claim.Settled (s : State) : Prop := s.me.queue = [] ∨ ∃ e q, s.me.queue = .entry e :: q

/-- R19 R190 R191: SETVL takes a grant and returns it in s[D]; STRIP consumes the last grant from the count, advances each pointer by the grant
times its size, and takes a grant for what is left at the width of the last one and goes to its target, or goes on at 0. -/
def Obligations.GrantsFollowTheRule : Prop :=
  (∀ (d a : SReg) (w : BitVec 2) (s : State), s.me.fliven = false → Settled s → Free s [d, a] →
    ∃ t, exec (.setvl d a w) s = .next t ∧ t.me.pc = s.me.pc + 4 ∧ Granted s t (s.rd a).toNat w.toNat [d] ∧
      (d ≠ 0 → t.rd d = BitVec.ofNat 64 (grantFor s (s.rd a).toNat w.toNat).2)) ∧
  ∀ (c : SReg) (n : BitVec 2) (sz : BitVec 8) (o : BitVec 10) (s : State), s.me.fliven = false → Settled s →
    (let rs := (List.range (n.toNat + 2)).map fun i => c + BitVec.ofNat 6 i
     let left := (s.rd c).toNat - s.me.v.vl
     Free s rs →
     ∃ t, exec (.strip c n sz o) s = .next t ∧ (c ≠ 0 → (t.rd c).toNat = left) ∧
       (∀ i, i ≤ n.toNat → c + BitVec.ofNat 6 (i + 1) ≠ 0 → t.rd (c + BitVec.ofNat 6 (i + 1)) =
         s.rd (c + BitVec.ofNat 6 (i + 1)) + BitVec.ofNat 64 (s.me.v.vl * 2 ^ (sz.toNat / 4 ^ i % 4))) ∧
       (left = 0 → t.me.pc = s.me.pc + 4 ∧ t.me.v = s.me.v ∧ ∀ r, r ∉ rs → t.rd r = s.rd r) ∧
       (left ≠ 0 → t.me.pc = target s o ∧ Granted s t left s.me.v.vw rs))

/-- No slot above the allotment holds anything: an invariant of a strand, since VSHRINK clears what it gives up (03 R33). -/
def Sys2Proof.Claim.NoneAbove (s : State) : Prop := ∀ k, s.me.v.valc ≤ k → s.slot k = {}

/-- R33 R192 R193 R194: WINDOW moves the window; VALLOC raises the allotment, and the slots it adds read as zero with tag RAW; VSHRINK lowers
it, the slots it gives up being lost; the wrong direction raises ILLEGAL. Nothing else changes. -/
def Obligations.WindowAndAllotmentMove : Prop :=
  ∀ (a : BitVec 6) (s : State), s.me.fliven = false →
    exec (.window a) s = .next (passed { s with me := { s.me with v := { s.me.v with wb := 16 * a.toNat } } }) ∧
    (s.me.v.valc ≤ 16 * a.toNat →
      exec (.valloc a) s = .next (passed { s with me := { s.me with v := { s.me.v with valc := 16 * a.toNat } } })) ∧
    (NoneAbove s → s.me.v.valc ≤ 16 * a.toNat → ∃ t, exec (.valloc a) s = .next t ∧ NoneAbove t ∧
      ∀ k, s.me.v.valc ≤ k → k < 16 * a.toNat → (t.slot k).tag = .raw ∧ (t.slot k).bits = 0 ∧ (t.slot k).side = 0) ∧
    (NoneAbove s → 16 * a.toNat ≤ s.me.v.valc → s.me.queue = [] → ∃ t, exec (.vshrink a) s = .next t ∧ NoneAbove t) ∧
    (Idle s → 16 * a.toNat < s.me.v.valc →
      exec (.valloc a) s = .next (takeTrap 0 (encode (.valloc a)).toNat { cause := .illegal } s)) ∧
    (Idle s → s.me.v.valc < 16 * a.toNat →
      exec (.vshrink a) s = .next (takeTrap 0 (encode (.vshrink a)).toNat { cause := .illegal } s)) ∧
    (16 * a.toNat ≤ s.me.v.valc → s.me.queue = [] → ∃ t, exec (.vshrink a) s = .next t ∧
      (∀ k, t.slot k = if 16 * a.toNat ≤ k ∧ k < s.me.v.valc then {} else s.slot k) ∧
      t = passed { s with me := { s.me with v := { s.me.v with valc := 16 * a.toNat, slots := t.me.v.slots, streams := t.me.v.streams } } } ∧
      ∀ q, q < 4 → t.me.v.stream q = if (s.me.v.stream q).bound ∧ 16 * a.toNat ≤ (s.me.v.stream q).slot ∧
        (s.me.v.stream q).slot < s.me.v.valc then {} else s.me.v.stream q)

/-- The control registers and their values (03 R41). -/
def Sys2Proof.Claim.controlMap (s : State) : List (Nat × Word) :=
  let n := fun (x : Nat) => BitVec.ofNat 64 x
  [(0x000, n s.me.v.vl), (0x001, n s.me.v.vw), (0x002, n s.me.v.lg), (0x003, n s.me.v.wb), (0x004, n s.me.v.valc),
   (0x005, n (((entriesOf s.me.queue).head?.map Entry.seq).getD s.me.seqNext)), (0x006, n (entriesOf s.me.queue).length),
   (0x010, s.me.fcsr), (0x011, n s.me.efc.toNat), (0x012, s.me.hspan), (0x013, s.me.wto), (0x014, s.me.traph),
   (0x015, s.me.glink), (0x016, n s.me.glevel.num), (0x020, n s.me.id.gid), (0x021, n s.me.id.sidx), (0x022, n s.me.id.nstr),
   (0x023, n s.me.id.ngang), (0x024, s.me.id.larg), (0x025, n (s.key / 4 % 8)), (0x026, n (s.key / 32 % 8)),
   (0x027, n (if s.key < 1024 then s.key / 256 else (s.key - 1024) / 4)), (0x028, n s.me.id.pid), (0x030, n s.now),
   (0x031, n s.me.id.lstart)]

/-- What MTC may write: the number, the values allowed, and the register written (R195). -/
def Sys2Proof.Claim.controlWrites : List (Nat × (Word → Prop) × (Word → Strand → Strand)) :=
  [(0x010, fun x => x.toNat < 2 ^ 17 ∧ x.toNat / 2 ^ 13 % 8 = 0 ∧ x.toNat % 8 ≤ 4, fun x t => { t with fcsr := x }),
   (0x011, fun x => x.toNat < 2 ^ 32, fun x t => { t with efc := BitVec.ofNat 32 x.toNat }),
   (0x013, fun _ => True, fun x t => { t with wto := x }),
   (0x014, fun x => x.toNat < 2 ^ 48 ∧ x.toNat % 4 = 0, fun x t => { t with traph := x }),
   (0x015, fun x => x.toNat < 2 ^ 48 ∧ x.toNat % 4 = 0, fun x t => { t with glink := x }),
   (0x016, fun x => x.toNat < 4, fun x t => { t with glevel := Level.ofNum x.toNat })]

/-- R41 R195 R304: MFC returns each control register and MTC writes the writable ones, where the value is allowed; a Fliven strand names only
NOW, DID and WTO. Another number raises ILLEGAL, a value that is not allowed too, and GLINK or GLEVEL at level K PRIVILEGE. -/
def Obligations.ControlRegistersMove : Prop :=
  ∀ (d : SReg) (n : BitVec 12) (s : State), Idle s →
    let may := s.me.fliven = true → n.toNat ∈ [0x030, 0x027, 0x013]
    (∀ x, may → (n.toNat, x) ∈ controlMap s → exec (.mfc d n) s = .next (passed (s.wr d x))) ∧
    (¬ may ∨ n.toNat ∉ (controlMap s).map Prod.fst →
      exec (.mfc d n) s = .next (takeTrap 0 (encode (.mfc d n)).toNat { cause := .illegal } s)) ∧
    (∀ p ∈ controlWrites, may → n.toNat = p.1 → p.2.1 (s.rd d) → (s.me.level = .k → p.1 ≠ 0x015 ∧ p.1 ≠ 0x016) →
      exec (.mtc d n) s = .next (passed { s with me := p.2.2 (s.rd d) s.me })) ∧
    (∀ p ∈ controlWrites, may → n.toNat = p.1 → ¬ p.2.1 (s.rd d) → (s.me.level = .k → p.1 ≠ 0x015 ∧ p.1 ≠ 0x016) →
      exec (.mtc d n) s = .next (takeTrap 0 (encode (.mtc d n)).toNat { cause := .illegal } s)) ∧
    (¬ may ∨ (n.toNat ∉ controlWrites.map fun p => p.1) →
      exec (.mtc d n) s = .next (takeTrap 0 (encode (.mtc d n)).toNat { cause := .illegal } s)) ∧
    (s.me.fliven = false → s.me.level = .k → n.toNat = 0x015 ∨ n.toNat = 0x016 →
      exec (.mtc d n) s = .next (takeTrap 0 (encode (.mtc d n)).toNat { cause := .privilege } s))

/-! Append pages, barriers, sync registers (13_ref_memory). -/

/-- One register written by an instruction of a home or bank; the rest of the strand, but the memory order's notes, and the other strands
are as they were. -/
structure Sys2Proof.Claim.HomeFrame (s t : State) (d : SReg) (x : Word) : Prop where
  value : d ≠ 0 → t.rd d = x
  regs : ∀ r, r ≠ d → t.rd r = s.rd r
  me : t.me = { s.me with regs := t.me.regs, pc := s.me.pc + 4, wait := {}, owed := [], ord := t.me.ord }
  rest : t.others = s.others ∧ t.parts = s.parts ∧ t.streams = s.streams

/-- Eight bytes have been appended to the page in a frame at its tail, and no other byte of memory changed (07 R106). -/
def Sys2Proof.Claim.Appended (u t : State) (f : Nat) (x : Word) : Prop :=
  (t.app f).tail = (u.app f).tail + 8 ∧ t.gangs = u.gangs ∧ (∀ g, g ≠ f → t.app g = u.app g) ∧
  ∀ a, t.mem.byte a = if f * 65536 + (u.app f).tail ≤ a ∧ a < f * 65536 + (u.app f).tail + 8 then
    BitVec.ofNat 8 (x.toNat / 256 ^ (a - (f * 65536 + (u.app f).tail))) else u.mem.byte a

/-- R107 R108 R114 R247: APP appends its word at TAIL and returns the offset, or FULL; APPAT appends where its offset is TAIL, returns 1 below
it and 2 above it; on a page that is not open the append raises WRITE-AFTER-SEAL. That an append whose bytes would go to a lost line
raises DATA-LOST and changes nothing is the model's reading (log entry 61). -/
def Obligations.AppendsAnswer : Prop :=
  ∀ (d a b : SReg) (s u : State) (l : Place), Free s [d, a, b] → s.me.ord.relFence = none → u = touch s s.agent (s.rd a) →
    (∀ y ∈ s.me.ord.path, y.mark = none ∧ y.fences = 0) →
    (let f := l.loc.pa / 65536
     let p := u.app f
     let o := (s.rd a).toNat % 65536
     (check u s.agent (.appendOp true) (s.rd a) 1 1 = .ok l →
       (p.state = .open_ → p.tail + 8 ≤ 65536 → u.lost (f * 65536 + p.tail) 8 = false →
         ∃ t, exec (.app d a b) s = .next t ∧ HomeFrame s t d (BitVec.ofNat 64 p.tail) ∧ Appended u t f (s.rd b)) ∧
       (p.state = .open_ → p.tail + 8 ≤ 65536 → u.lost (f * 65536 + p.tail) 8 = true → Idle s → exec (.app d a b) s =
         .next (takeTrap 0 (encode (.app d a b)).toNat { cause := .dataLost, addr := s.rd a } u)) ∧
       (p.state = .open_ → 65536 < p.tail + 8 → ∃ t, exec (.app d a b) s = .next t ∧ HomeFrame s t d (BitVec.allOnes 64) ∧
         t.apps = u.apps ∧ t.mem = s.mem) ∧
       (p.state ≠ .open_ → Idle s → exec (.app d a b) s =
         .next (takeTrap 0 (encode (.app d a b)).toNat { cause := .writeAfterSeal, addr := s.rd a } u))) ∧
     (check u s.agent (.appendOp true) (s.rd a) 8 8 = .ok l →
       (o < p.tail → ∃ t, exec (.appat d a b) s = .next t ∧ HomeFrame s t d 1 ∧ t.apps = u.apps ∧ t.mem = s.mem) ∧
       (p.state = .open_ → p.tail < o → ∃ t, exec (.appat d a b) s = .next t ∧ HomeFrame s t d 2 ∧ t.apps = u.apps ∧
         t.mem = s.mem) ∧
       (p.state = .open_ → p.tail = o → u.lost (f * 65536 + o) 8 = false →
         ∃ t, exec (.appat d a b) s = .next t ∧ HomeFrame s t d 0 ∧ Appended u t f (s.rd b)) ∧
       (p.state = .open_ → p.tail = o → u.lost (f * 65536 + o) 8 = true → Idle s → exec (.appat d a b) s =
         .next (takeTrap 0 (encode (.appat d a b)).toNat { cause := .dataLost, addr := s.rd a } u)) ∧
       (p.state ≠ .open_ → p.tail ≤ o → Idle s → exec (.appat d a b) s =
         .next (takeTrap 0 (encode (.appat d a b)).toNat { cause := .writeAfterSeal, addr := s.rd a } u))))

/-- The page in a frame as it was but for the releases that stay with it, and no other page changed (15 R285). -/
def Sys2Proof.Claim.Signed (u t : State) (f : Nat) : Prop :=
  t.app f = { u.app f with sig := (t.app f).sig } ∧ ∀ g, g ≠ f → t.app g = u.app g

/-- R110 R111 R339: SEAL completes on a page without pending reservations, which is sealed then, and waits on one being sealed; waiting, it
completes once the page has been sealed and raises NOT-PRESENT once FREE has taken it, whatever became of the page since; APPMARK
returns MARK, TAIL and the state of the page, at once or, left pending, behind the strand's waiting accesses. No byte of memory changes.
That both take any address of the page is the model's reading (log entry 33). -/
def Sys2Proof.Claim.SealAndAppmarkComplete : Prop :=
  (∀ (d a : SReg) (s u : State) (l : Place), Free s [d, a] → u = touch s s.agent (s.rd a) →
    (let f := l.loc.pa / 65536
     (check u s.agent (.appendOp true) (s.rd a) 1 1 = .ok l → s.me.wait.frame = none → s.me.ord.path = [] →
       ((u.app f).state = .open_ → (u.app f).pending = [] → (u.app f).engineHeld = false → ∃ t, exec (.sealPage a) s = .next t ∧
         (t.app f).state = .sealed_ ∧ (t.app f).tail = (u.app f).tail ∧ t.mem = s.mem ∧ t.me = (passed s).me ∧
         ∀ g, g ≠ f → t.app g = u.app g) ∧
       ((u.app f).state = .sealed_ → ∃ t, exec (.sealPage a) s = .next t ∧ t = { passed u with apps := t.apps } ∧ Signed u t f) ∧
       ((u.app f).state = .sealing → ∃ t, exec (.sealPage a) s = .next t ∧ Signed u t f ∧
         t = { u with apps := t.apps, me := { u.me with wait := { u.me.wait with frame := some f, on_ := some (.sealPage a) } } })) ∧
     (check u s.agent (.appendOp false) (s.rd a) 1 1 = .ok l →
       (s.later = false → (∀ y ∈ s.me.ord.path, y.mark ≠ some f) → ∃ t, exec (.appmark d a) s = .next t ∧ t.mem = s.mem ∧ t.apps = u.apps ∧
         HomeFrame s t d (markWord (u.app f))) ∧
       (s.later = true → WaitsWith s (.appmark d a) fun x => x.load = some ⟨d, 8, false⟩ ∧ x.mark = some f)))) ∧
  (∀ (a : SReg) (s : State) (f : Nat), Free s [a] → s.me.wait.frame = some f →
    (s.me.wait.sealed = some true → exec (.sealPage a) s = .next (passed s)) ∧
    (s.me.wait.sealed = none → exec (.sealPage a) s = .next s) ∧
    (s.me.wait.sealed = some false → Idle s → exec (.sealPage a) s =
      .next (takeTrap 0 (encode (.sealPage a)).toNat { cause := .notPresent, addr := s.rd a } s))) ∧
  ∀ (s : State) (f : Nat) (p : AppPage), s.me.wait.frame = some f → s.me.wait.sealed = none → Map.get? s.apps f = some p →
    (∀ e, (startFree e s f).me.wait.sealed = some false) ∧
    (p.state = .sealing → p.engineHeld = false → ∀ r, p.pending = [r] → ∃ t, exec (.appendReservationFill f 0) s = .next t ∧
      (t.app f).state = .sealed_ ∧ t.me.wait.sealed = some true)

/-- R120: OCLEAR above level K, of a page with no clear or shoot-down in progress and no copies at peers, completes when nothing of the part is on
the way: every cell of the page is undecided and its generation is one higher. At level K it raises PRIVILEGE. That it takes any address of
the page is the model's reading (log entry 33). -/
def Sys2Proof.Claim.OclearEmptiesThePage : Prop :=
  ∀ (a : SReg) (s u : State) (l : Place),
    (Idle s → s.me.level = .k → exec (.oclear a) s = .next (takeTrap 0 (encode (.oclear a)).toNat { cause := .privilege } s)) ∧
    (s.me.level ≠ .k → Free s [a] → s.later = false → s.me.wait.mark = none → (∀ p ∈ s.strands, p.2.ord.path = []) →
      (∀ c ∈ s.cores, c.2.chunks = [] ∧ c.2.stores = []) → s.shoots = [] → u = touch s s.agent (s.rd a) →
      check u s.agent .clearOp (s.rd a) 1 1 = .ok l →
      (let f := l.loc.pa / 65536
       (Map.get? s.peerHolds f).getD [] = [] → Map.get? u.apps f = none → (u.once f).clearing = false →
       ∃ t, exec (.oclear a) s = .next t ∧ (t.once f).gen = ((u.once f).gen + 1) % 2 ^ 32 ∧ (∀ i, cellAt t f i = none) ∧
         (t.once f).clearing = false ∧ (∀ g, g ≠ f → t.once g = u.once g) ∧ t.shoots = [] ∧ t.mem = s.mem ∧
         t.me = (passed s).me))

/-- R110 R111 R120 R339: SEAL, APPMARK and OCLEAR complete at the homes of their pages, or trap. The alignment of their operand is log entry
33. -/
def Obligations.SealAppmarkAndOclearComplete : Prop := SealAndAppmarkComplete ∧ OclearEmptiesThePage

/-- R130 R131 R249: ABINIT sets a barrier up for 1 to 65,535 arrivals, ABEXPECT announces bytes and arrives, ABARRIVE arrives; each
completes, changes the 16 bytes of its barrier as R131 says and no other byte, and no register. That a BAL above 2^31 − 1 is kept modulo
2^32 with the test made on the sum is the model's reading (log entry 67). ABINIT of another count, and ABEXPECT of a value with one of
bits 63 to 31 set, raise ILLEGAL. -/
def Sys2Proof.Claim.BarriersCountArrivals : Prop :=
  ∀ (a b : SReg) (s : State) (c o : Nat), s.me.fliven = false → Free s [a, b] → s.later = false → s.me.ord.path = [] →
    s.me.ord.relFence = none → barrierTrap s s.agent (s.rd a) = .ok (c, o) →
    (let l := Loc.spad s.me.id.gang c o
     let x := barrierIn s l
     let n := (s.rd b).toNat
     (1 ≤ n → n ≤ 65535 → ∃ t, exec (.abinit a b) s = .next t ∧ t.me = (passed s).me ∧ Apart s t ∧
       Stored s t l 16 (n * 2 ^ 32 + n * 2 ^ 48)) ∧
     (n = 0 ∨ 65535 < n → s.me.queue = [] →
       exec (.abinit a b) s = .next (takeTrap 0 (encode (.abinit a b)).toNat { cause := .illegal } s)) ∧
     (2 ^ 31 ≤ n → s.me.queue = [] →
       exec (.abexpect a b) s = .next (takeTrap 0 (encode (.abexpect a b)).toNat { cause := .illegal } s)) ∧
     (n < 2 ^ 31 → ∃ t, exec (.abexpect a b) s = .next t ∧ t.me = (passed s).me ∧ Apart s t ∧
       Stored s t l 16 (barrierWord (afterEvent x (.expect n)))) ∧
     ∃ t, exec (.abarrive a) s = .next t ∧ t.me = (passed s).me ∧ Apart s t ∧ Stored s t l 16 (barrierWord (afterEvent x .arrive)))

/-- R249 R250: ABTEST returns the GEN field; ABWAIT goes on once the phase is not that of bit 0 of s[B], on a broken barrier of that phase it
raises DATA-LOST when bytes were lost and else ARRIVAL-OVERFLOW, and before its time is up it sleeps. No byte changes. -/
def Sys2Proof.Claim.BarriersAreTestedAndAwaited : Prop :=
  ∀ (a b d : SReg) (s : State) (c o : Nat), s.me.fliven = false → Free s [a, b, d] → s.me.ord.path = [] →
    barrierTrap s s.agent (s.rd a) = .ok (c, o) →
    (let x := barrierIn s (.spad s.me.id.gang c o)
     (∃ t, exec (.abtest d a) s = .next t ∧ HomeFrame s t d (BitVec.ofNat 64 (x.gen + x.lost.toNat * 2 ^ 30 + x.broken.toNat * 2 ^ 31)) ∧
       ∀ l, byteAt t l = byteAt s l) ∧
     (x.gen % 2 ≠ (s.rd b).toNat % 2 → ∃ t, exec (.abwait a b) s = .next t ∧ HomeFrame s t 0 0 ∧ ∀ l, byteAt t l = byteAt s l) ∧
     (x.gen % 2 = (s.rd b).toNat % 2 → x.broken = true → Idle s → ∃ u, (∀ l, byteAt u l = byteAt s l) ∧ u.me = s.me ∧
       exec (.abwait a b) s = .next (takeTrap 0 (encode (.abwait a b)).toNat
         { cause := if x.lost then .dataLost else .arrivalOverflow } u)) ∧
     (x.gen % 2 = (s.rd b).toNat % 2 → x.broken = false → s.me.wto = 0 → ∃ t, exec (.abwait a b) s = .next t ∧
       t.me.pc = s.me.pc ∧ t.me.wait.since.isSome ∧ (∀ r, t.rd r = s.rd r) ∧ ∀ l, byteAt t l = byteAt s l))

/-- R130 R131 R249 R250: barriers are set up, count bytes and arrivals, and are tested and awaited. A BAL above 2^31 − 1 is log entry 67.
-/
def Obligations.BarriersCountAndAreAwaited : Prop := BarriersCountArrivals ∧ BarriersAreTestedAndAwaited

/-- The value of a sync register as a die reads it: the home's own, or its mirror's (05 R80). -/
def Sys2Proof.Claim.syncAt (s : State) (d n : Nat) : Word :=
  if n / 4096 % 4 = d then (Map.getD s.syncs n {}).val else (Map.getD (s.die d).mirror n {}).val

/-- R80 R81 R251 R252: SRTAS and SRFADD return the old value and change the register, which every die reads as soon as no change is on the way;
SRREAD returns the value its die reads, and SRWAIT does once that is at least s[B]. A number outside the allotment raises PROTECTION. -/
def Obligations.SyncRegistersMove : Prop :=
  ∀ (d a b : SReg) (s : State), Free s [d, a, b] → NoReleases s →
    (let n := (s.rd a).toNat
     let al := (s.part s.me.part).sralloc.toNat
     let mine := n < 16384 ∧ (n + 16384 - al % 16384) % 16384 < al / 2 ^ 16 % 2 ^ 15
     let old := (Map.getD s.syncs n {}).val
     let here := syncAt s (dieOfKey s.key) n
     (mine → s.later = false → s.me.ord.path = [] →
       (∃ t, exec (.srtas d a b) s = .next t ∧ HomeFrame s t d old ∧
         (∀ k, k < 4 → syncAt t k n = if old = 0 then s.rd b else old) ∧ t.mem = s.mem ∧ t.gangs = s.gangs) ∧
       (∃ t, exec (.srfadd d a b) s = .next t ∧ HomeFrame s t d old ∧
         (∀ k, k < 4 → syncAt t k n = old + s.rd b) ∧ t.mem = s.mem ∧ t.gangs = s.gangs)) ∧
     (mine → ∃ t, exec (.srread d a) s = .next t ∧ HomeFrame s t d here ∧ t.syncs = s.syncs ∧ t.mem = s.mem ∧ t.gangs = s.gangs) ∧
     (mine → (s.rd b).toNat ≤ here.toNat →
       ∃ t, exec (.srwait d a b) s = .next t ∧ HomeFrame s t d here ∧ t.syncs = s.syncs ∧ t.mem = s.mem ∧ t.gangs = s.gangs) ∧
     (mine → here.toNat < (s.rd b).toNat → s.me.wto = 0 → ∃ t, exec (.srwait d a b) s = .next t ∧ t.me.wait.since.isSome ∧
       t = { s with me := { s.me with wait := t.me.wait } }) ∧
     (¬ mine → Idle s → ∀ i ∈ [Instr.srtas d a b, .srfadd d a b, .srread d a, .srwait d a b],
       exec i s = .next (takeTrap 0 (encode i).toNat { cause := .protection } s)))

/-! Tasks, copies drained, and the privileged words (11_ref_control, 13_ref_memory, 22_privileged). -/

/-- R204 R253 R301 R364: ENQ at an open queue with room, from a record the strand can load into a slot the partition can write, completes,
and WIDX is one higher; at a closed queue it raises PROTECTION, from a misaligned record MISALIGN. With the queue's descriptor in a lost
line it raises DATA-LOST, with the descriptor's own address, which is the model's reading of R364 (log entry 63). CDRAIN on a quiet
channel completes, and the lines of its landed copies join those that later releases of its core cover; on one with a lost chunk it raises
DATA-LOST and forgets it. -/
def Obligations.EnqAndCdrainComplete : Prop :=
  (∀ (a b : SReg) (s u v : State) (l : Place) (rec : List Byte), Free s [a, b] → s.me.ord.path = [] → s.me.wait.record = none →
    (s.rd a).toNat < 64 →
    openToEnq s s.me.part (s.rd a).toNat = true → s.lost (descAddr s s.me.part (s.rd a).toNat) 64 = false → (s.rd b).toNat % 128 = 0 → u = touch s s.agent (s.rd b) →
    check u s.agent .load (s.rd b) 128 128 = .ok l → readPieces s.agent .own l.loc 16 u = (v, rec) →
    (let d := descOf v s.me.part (s.rd a).toNat
     let w := touch v (dispatchAgent v s.me.part) (d.slot d.widx)
     d.filled < d.size →
     ∀ k : Place, check w (dispatchAgent v s.me.part) .hwWrite (d.slot d.widx) 128 128 = .ok k →
     ∃ t, exec (.enq a b) s = .next t ∧
       (let q := descAddr s s.me.part (s.rd a).toNat
        k.loc.pa + 128 ≤ q ∨ q + 64 ≤ k.loc.pa →
        t.me = (passed s).me ∧ t.others = s.others ∧ t.gangs = v.gangs ∧
        (∀ i, i < 4 → t.mem.byte (q + 16 + i) = BitVec.ofNat 8 ((d.widx + 1) % 2 ^ 32 / 256 ^ i)) ∧
        ∀ i x, rec[i]? = some x → t.mem.byte (k.loc.pa + i) = x))) ∧
  (∀ (a b : SReg) (s : State), Free s [a, b] → Idle s → s.me.wait.record = none →
    (let open_ := decide ((s.rd a).toNat < 64) && (s.part s.me.part).qopen.getLsbD (s.rd a).toNat
     let at_ := descAddr s s.me.part (s.rd a).toNat
     (open_ = false ∨ s.lost at_ 64 = false ∧ openToEnq s s.me.part (s.rd a).toNat = false →
       exec (.enq a b) s = .next (takeTrap 0 (encode (.enq a b)).toNat { cause := .protection } s)) ∧
     (open_ = true → s.lost at_ 64 = true →
       exec (.enq a b) s = .next (takeTrap 0 (encode (.enq a b)).toNat { cause := .dataLost, addr := BitVec.ofNat 64 at_ } s)) ∧
     ((s.rd a).toNat < 64 → s.lost at_ 64 = false → openToEnq s s.me.part (s.rd a).toNat = true → (s.rd b).toNat % 128 ≠ 0 →
       exec (.enq a b) s = .next (takeTrap 0 (encode (.enq a b)).toNat { cause := .misalign, addr := s.rd b } s)))) ∧
  ∀ (a : BitVec 6) (s : State), s.me.fliven = false → s.me.queue = [] → NoLoads s → s.me.status = .ready →
    (s.core s.myCore).chunks = [] →
    (let x := Map.getD (s.core s.myCore).chans (a.toNat % 8) {}
     (x.lost = false → x.landed = [] → exec (.cdrain a) s = .next (passed s)) ∧
     (x.lost = false → ∃ t, exec (.cdrain a) s = .next t ∧ t = { passed s with cores := t.cores } ∧
       (Map.getD (t.core s.myCore).chans (a.toNat % 8) {}).landed = [] ∧ ∀ y ∈ x.landed, y ∈ (t.core s.myCore).written) ∧
     (x.lost = true → ∃ u, exec (.cdrain a) s = .next (takeTrap 0 (encode (.cdrain a)).toNat { cause := .dataLost } u) ∧
       u.me = s.me ∧ u.mem = s.mem ∧ (Map.getD (u.core s.myCore).chans (a.toNat % 8) {}).lost = false))

/-- The system registers and their values (22 R308). -/
def Sys2Proof.Claim.systemMap (s : State) : List (Nat × Word) :=
  let n := fun (x : Nat) => BitVec.ofNat 64 x
  let p := s.part s.me.part
  [(0x100, s.me.fl.epc), (0x101, s.me.fl.ecause), (0x102, s.me.fl.faultVal), (0x103, n s.me.fl.elevel), (0x104, s.me.fl.tvec),
   (0x105, n s.me.fl.spid), (0x106, n s.me.level.num), (0x110, p.gtbase), (0x111, p.frqbase), (0x112, n p.frqsize),
   (0x113, n p.frqhead), (0x114, n p.frqtail), (0x115, n p.pdlim), (0x116, n p.stallint), (0x117, p.troot), (0x118, p.sralloc),
   (0x119, p.qopen), (0x11A, p.savebase), (0x11B, p.savesize)]

/-- What MTS may write: the number, whether only level F may, the values allowed (22 R308). The memory share of SAVEBASE is without the frames
that left it when they were freed after retirement (27 R364), and without those that Fliven keeps, which the model lists in a field of its
own (27 R356; log entry 60). -/
def Sys2Proof.Claim.systemWrites (s : State) : List (Nat × Bool × (Word → Prop)) :=
  let p := s.part s.me.part
  [(0x100, true, fun _ => True), (0x101, true, fun x => x.toNat < 2 ^ 16), (0x102, true, fun _ => True),
   (0x103, true, fun x => x.toNat < 4), (0x104, true, fun x => x.toNat < 2 ^ 48 ∧ x.toNat % 4 = 0),
   (0x105, true, fun x => x.toNat < s.nparts), (0x110, false, fun x => x.toNat < 2 ^ 48 ∧ x.toNat % 16384 = 0),
   (0x111, false, fun x => x.toNat < 2 ^ 48 ∧ x.toNat % 64 = 0 ∧ p.frqhead = p.frqtail),
   (0x112, false, fun x => (∃ k, 4 ≤ k ∧ k ≤ 16 ∧ x.toNat = 2 ^ k) ∧ p.frqhead = p.frqtail),
   (0x115, false, fun x => x.toNat ≤ 1000000), (0x116, false, fun x => 10000 ≤ x.toNat ∧ x.toNat ≤ 1000000000),
   (0x117, true, fun x => x.toNat < 2 ^ 52 ∧ x.toNat % 2048 = 0),
   (0x118, true, fun x => x.toNat / 2 ^ 31 = 0 ∧ x.toNat / 2 ^ 14 % 4 = 0 ∧ x.toNat / 2 ^ 16 % 2 ^ 15 ≤ 16384),
   (0x119, false, fun _ => True),
   (0x11A, true, fun x => x.toNat < 2 ^ 39 ∧ x.toNat % 2 ^ 16 = 0 ∧ x.toNat / 2 ^ 36 % 8 * s.nparts / 8 = s.me.part ∧
     x.toNat / 65536 ∉ s.gone ∧ ∀ r ∈ s.kept, ¬ (r.1 ≤ x.toNat / 65536 ∧ x.toNat / 65536 < r.1 + r.2)),
   (0x11B, true, fun _ => True)]

/-- R308 R311 R313: at level F or S MFS returns each system register, and MTS writes each writable one where its level and its value allow:
the register reads back as written, every other one as before, unless SPID has moved to another partition; a forbidden value raises
ILLEGAL, a level that may not write PRIVILEGE, and ERET below level F too. That Fliven keeps the frames that a field lists is the model's
choice (log entry 60). -/
def Obligations.SystemRegistersMove : Prop :=
  ∀ (d : SReg) (n : BitVec 12) (s : State), Idle s →
    (∀ x, s.me.level.num ≤ 1 → (n.toNat, x) ∈ systemMap s → exec (.mfs d n) s = .next (passed (s.wr d x))) ∧
    (∀ p ∈ systemWrites s, n.toNat = p.1 → s.me.level.num ≤ 1 → (p.2.1 = true → s.me.level = .f) → p.2.2 (s.rd d) →
      ∃ t, exec (.mts d n) s = .next t ∧ (p.1, s.rd d) ∈ systemMap t ∧ t.me.pc = s.me.pc + 4 ∧ (∀ r, t.rd r = s.rd r) ∧
        t.me.level = s.me.level ∧ t.others = s.others ∧ t.mem = s.mem ∧
        ∀ q ∈ systemMap s, q.1 ≠ p.1 → p.1 ≠ 0x105 → q ∈ systemMap t) ∧
    (∀ p ∈ systemWrites s, n.toNat = p.1 → s.me.level.num ≤ 1 → (p.2.1 = true → s.me.level = .f) → ¬ p.2.2 (s.rd d) →
      exec (.mts d n) s = .next (takeTrap 0 (encode (.mts d n)).toNat { cause := .illegal } s)) ∧
    (∀ p ∈ systemWrites s, n.toNat = p.1 → p.2.1 = true → s.me.level = .s →
      exec (.mts d n) s = .next (takeTrap 0 (encode (.mts d n)).toNat { cause := .privilege } s)) ∧
    (2 ≤ s.me.level.num → ∀ i ∈ [Instr.mfs d n, .mts d n],
      exec i s = .next (takeTrap 0 (encode i).toNat { cause := .privilege } s)) ∧
    (s.me.level ≠ .f → exec .eret s = .next (takeTrap 0 (encode .eret).toNat { cause := .privilege } s))

/-- Some buffer entry of a partition answers for an address (24 R336). -/
def Sys2Proof.Claim.Cached (s : State) (p : TlbEntry → Prop) (d : Nat) : Prop :=
  (∃ c ∈ s.cores, c.1 / 64 = d ∧ ∃ e ∈ c.2.tlb, p e) ∨ ∃ x ∈ s.dies, x.1 = d ∧ ∃ e ∈ x.2.tlb, p e

/-- What a SHOOT of a page finds at rest: nothing waits on the way, and it may name the page (22 R314). -/
structure Sys2Proof.Claim.ShootReady (s : State) (d a b : SReg) (at_ e lv : Nat) : Prop where
  level : s.me.level.num ≤ 2
  free : Free s [d, a, b]
  now : s.later = false ∧ s.me.wait.mark = none ∧ s.shoots = []
  quiet : (∀ p ∈ s.strands, p.2.ord.path = []) ∧ (∀ c ∈ s.cores, c.2.chunks = [] ∧ c.2.stores = []) ∧
    ∀ p ∈ s.apps, p.2.pending = []
  leaf : leafOf s (s.rd a).toNat = some (at_, e, lv)
  sound : shootLost s (s.rd a).toNat = false
  op : s.rd b = 0 ∧ s.me.level ≠ .l ∨
    s.rd b = 1 ∧ leafGood s s.me.part (at_, e, lv) = true ∧ (s.me.level = .l → e / 64 % 2 = 1)

/-- The frames that FREE of a leaf gives up (24 R331). -/
def Sys2Proof.Claim.framesOf (e lv : Nat) : List Nat :=
  if lv = 1 then (List.range 256).map fun i => leafBase e / 65536 + i else [leafBase e / 65536]

/-- The frames of the pages of a stream's pool (06 R97). -/
def Sys2Proof.Claim.poolFrames (x : Stream) : List Nat :=
  (x.spare.map Prod.snd ++ (x.courses.flatMap fun c => c.pages.map fun p => p.pa) ++ x.releasing.map fun p => p.pa).map (· / 65536)

/-- R314 R315 R338 R364 R88: TLBINV drops the buffer entries of the page or of the partition, of the executing die or of all, and no
other; SHOOT returns 0 when every holder has dropped the page, with no entry of it left anywhere and every other entry kept, 1 when FREE
finds no leaf; with FREE the leaf is not present afterwards, the home state of its frames is gone, and a stream whose header lay in them
is unbound. While a peer holds copies of the page the SHOOT waits for it; one whose walk meets a lost line raises DATA-LOST, which is the
model's reading of R364 (log entry 63). A stream with pages of its pool among the frames notes that it has them no more, which is the
model's reading (log entry 75). -/
def Obligations.ShootDownsDropTranslations : Prop :=
  (∀ (a b : SReg) (s : State), s.me.level.num ≤ 1 → Free s [a, b] → (s.rd b).toNat < 4 →
    ∃ t, exec (.tlbinv a b) s = .next t ∧ t.me = (passed s).me ∧ Apart s t ∧ t.mem = s.mem ∧ t.gangs = s.gangs ∧
      (let k := (s.rd b).toNat
       let gone := fun (e : TlbEntry) => e.part = s.me.part ∧ (k % 2 = 1 ∨ e.hits s.me.part (s.rd a).toNat = true)
       ∀ d, d < 4 → ∀ e, Cached t (· = e) d ↔ Cached s (· = e) d ∧ ¬ ((2 ≤ k ∨ d = dieOfKey s.key) ∧ gone e))) ∧
  (∀ (d a b : SReg) (s : State), s.me.level.num ≤ 2 → Free s [d, a, b] → s.me.ord.path = [] → s.me.wait.mark = none → s.shoots = [] →
    s.rd b = 1 →
    (leafOf s (s.rd a).toNat = none → shootLost s (s.rd a).toNat = false → exec (.shoot d a b) s = .next (passed (s.wr d 1))) ∧
    (Idle s → shootLost s (s.rd a).toNat = true → exec (.shoot d a b) s =
      .next (takeTrap 0 (encode (.shoot d a b)).toNat { cause := .dataLost, addr := s.rd a } s))) ∧
  (∀ (d a b : SReg) (s : State) (at_ e lv : Nat), ShootReady s d a b at_ e lv → (∀ p ∈ s.peerHolds, p.2 = []) →
    (s.rd b = 1 → ∀ p ∈ s.streams, p.2.pa / 65536 ∉ framesOf e lv) →
    ∃ t, exec (.shoot d a b) s = .next t ∧ (d ≠ 0 → t.rd d = 0) ∧ (∀ r, r ≠ d → t.rd r = s.rd r) ∧ t.me.pc = s.me.pc + 4 ∧
      t.shoots = [] ∧ (∀ k, Map.get? t.streams k = (Map.get? s.streams k).map fun x =>
        { x with freed := x.freed ++ if s.rd b = 1 then (framesOf e lv).filter fun f => decide (f ∈ poolFrames x) else [] }) ∧ (∀ k, k < 4 → ¬ Cached t (fun e => e.hits s.me.part (s.rd a).toNat = true) k) ∧
      (let page := (s.rd a).toNat / 65536
       let gone := fun (x : TlbEntry) => x.part = s.me.part ∧
         (if x.big then x.vpage = page / 256 else if lv = 1 then x.vpage / 256 = page / 256 else x.vpage = page)
       ∀ k, k < 4 → ∀ x, Cached t (· = x) k ↔ Cached s (· = x) k ∧ ¬ gone x) ∧
      (s.rd b = 1 → leafOf t (s.rd a).toNat = none ∧ (∀ x, x < at_ ∨ at_ + 8 ≤ x → t.mem.byte x = s.mem.byte x) ∧
        ∀ f ∈ framesOf e lv, Map.get? t.apps f = none ∧ Map.get? t.onces f = none) ∧
      (s.rd b = 0 → t.mem = s.mem ∧ t.apps = s.apps ∧ t.onces = s.onces)) ∧
  (∀ (d a b : SReg) (s : State) (at_ e lv k : Nat) (x : Stream), ShootReady s d a b at_ e lv → (∀ p ∈ s.peerHolds, p.2 = []) →
    s.rd b = 1 → Map.get? s.streams k = some x → x.pa / 65536 ∈ framesOf e lv → (∀ y ∈ s.streams, y.2.releasing = []) →
    ∃ t, exec (.shoot d a b) s = .next t ∧ (d ≠ 0 → t.rd d = 0) ∧ t.me.pc = s.me.pc + 4 ∧ t.shoots = [] ∧
      Map.get? t.streams k = none) ∧
  ∀ (d a b : SReg) (s : State) (at_ e f q : Nat), ShootReady s d a b at_ e 0 → s.rd b = 1 → f = leafBase e / 65536 →
    q ∈ Map.getD s.peerHolds f [] →
    ∃ t x, exec (.shoot d a b) s = .next t ∧ t.me.pc = s.me.pc ∧ (∀ r, t.rd r = s.rd r) ∧ t.shoots = [x] ∧ x.frames = [f] ∧
      x.dies = [] ∧ (∀ p, p ∈ x.peers ↔ p ∈ Map.getD s.peerHolds f []) ∧
      ∀ k, k < 4 → ¬ Cached t (fun e => e.hits s.me.part (s.rd a).toNat = true) k

/-- A handle of the partition that the strand names: its reserved bits are zero (22 R310). -/
structure Sys2Proof.Claim.Handle (s : State) (h : Word) : Prop where
  reserved : h.toNat < 2 ^ 48 ∧ h.toNat / 2 ^ 13 % 8 = 0
  part : h.toNat / 2 ^ 10 % 8 = s.me.part

/-- The place that a handle names, and its stop sequence (22 R310). -/
def Sys2Proof.Claim.keyIn (h : Word) : Nat := h.toNat % 1024
def Sys2Proof.Claim.seqIn (h : Word) : Nat := h.toNat / 2 ^ 16

/-- No place holds two strands, and no number names two gangs. -/
def Sys2Proof.Claim.OnePlace (s : State) : Prop := (s.strands.map Prod.fst).Nodup ∧ (s.gangs.map Prod.fst).Nodup

/-- The strands of a gang other than one place that hold a place and have not exited. -/
def Sys2Proof.Claim.Mates (s : State) (g k : Nat) (p : Status → Prop) : Prop :=
  ∀ j z, j ≠ k → s.strand? j = some z → z.fliven = false → z.id.gang = g → z.status = .exited ∨ z.status = .absent ∨ p z.status

/-- R310 R318: FRQPOP of an empty queue returns 0, else it returns 1 with the record's number, the 64 bytes of the record stand at s[A], and
FRQHEAD is one higher; a misaligned address raises MISALIGN, and a page that cannot be written its fault. -/
def Sys2Proof.Claim.FrqpopTakesRecords : Prop :=
  ∀ (d a : SReg) (s : State), s.me.level.num ≤ 1 → Free s [d, d + 1, a] → s.me.ord.path = [] →
    (let u := touch s s.agent (s.rd a)
     let p := s.part s.me.part
     let at_ := p.frqbase + BitVec.ofNat 64 (64 * (p.frqhead % p.frqsize))
     (∀ l, (s.rd a).toNat % 64 = 0 → check u s.agent .store (s.rd a) 64 64 = .ok l →
       (p.frqhead = p.frqtail → ∃ t, exec (.frqpop d a) s = .next t ∧ PairFrame s t d 0 (BitVec.ofNat 64 p.frqhead)) ∧
       ∀ k, p.frqhead ≠ p.frqtail → p.held = [] →
         check (touch u (hwAgent s.me.part (dieOfKey s.key)) at_) (hwAgent s.me.part (dieOfKey s.key)) .hwRead at_ 64 64 = .ok k →
         ∃ t, exec (.frqpop d a) s = .next t ∧ (d ≠ 0 → t.rd d = 1) ∧ (d + 1 ≠ 0 → t.rd (d + 1) = BitVec.ofNat 64 p.frqhead) ∧
           (∀ r, r ≠ d → r ≠ d + 1 → t.rd r = s.rd r) ∧ t.me.pc = s.me.pc + 4 ∧
           (t.part s.me.part).frqhead = (p.frqhead + 1) % 2 ^ 32 ∧ (t.part s.me.part).frqtail = p.frqtail ∧
           Stored s t l.loc 64 (numberAt s k.loc 64)) ∧
     (Idle s → (s.rd a).toNat % 64 ≠ 0 → exec (.frqpop d a) s =
       .next (takeTrap 0 (encode (.frqpop d a)).toNat { cause := .misalign, addr := s.rd a } s)) ∧
     ∀ f, Idle s → (s.rd a).toNat % 64 = 0 → check u s.agent .store (s.rd a) 64 64 = .error f →
       exec (.frqpop d a) s = .next (takeTrap 0 (encode (.frqpop d a)).toNat f u))

/-- R317 R345 R346: HALT of a handle that names no resident strand returns 2, of one whose gang's strands are all stopped 1; a gang that
nothing holds off stops: HALT returns 0, the gang is halted and gives up its places, its strand stands stopped among the saved ones with
the state it had, in the context block when there is one, and a record of CAUSE PREEMPT is posted. That a malformed handle, one of another
partition and one of a gang that gave up its places name no resident strand is the model's reading (log entry 55). The gang here has one
strand, ready and with nothing on the way. -/
def Sys2Proof.Claim.HaltStopsGangs : Prop :=
  ∀ (d a : SReg) (s : State), s.me.level.num ≤ 1 → Free s [d, a] → s.me.wait.mark = none →
    (let h := s.rd a
     let k := keyIn h
     (¬ Handle s h ∨ s.strand? k = none → exec (.halt d a) s = .next (passed (s.wr d 2))) ∧
     (∀ x, Handle s h → s.strand? k = some x → x.status = .exited ∨ x.status = .absent →
       exec (.halt d a) s = .next (passed (s.wr d 2))) ∧
     ∀ x : Strand, Handle s h → s.me.fliven = true → OnePlace s → s.strand? k = some x → x.fliven = false → x.id.pid = s.me.part →
       (x.status = .stopped → Mates s x.id.gang k (· = .stopped) → exec (.halt d a) s = .next (passed (s.wr d 1))) ∧
       ∀ g : Gang, s.gang? x.id.gang = some g → g.state = .running → g.stopReq = none → g.mx = false →
         x.status = .ready → x.pd = false → x.wait.mark = none → x.queue = [] → x.ord.path = [] →
         Mates s x.id.gang k (fun _ => False) →
         (∀ c ∈ s.cores, c.2.chunks = [] ∧ c.2.tileWrites = [] ∧ c.2.redMsgs = [] ∧ c.2.stores = []) →
         (let p := s.part x.id.pid
          p.frqsize ≤ (p.frqtail + 2 ^ 32 - p.frqhead) % 2 ^ 32 →
          ∃ t y z r, exec (.halt d a) s = .next t ∧ (d ≠ 0 → t.rd d = 0) ∧ (∀ r, r ≠ d → t.rd r = s.rd r) ∧ t.me.pc = s.me.pc + 4 ∧
            t.strand? k = none ∧ t.gang? x.id.gang = some y ∧ y.state = .halted ∧ y.saved = [(k, z)] ∧ z.status = .stopped ∧
            z.stopSeq = (x.stopSeq + 1) % 2 ^ 32 ∧ z.pc = x.pc ∧ z.regs = x.regs ∧ z.level = x.level ∧ z.v = x.v ∧
            (y.ctx ≠ 0 → natOfBytes (t.mem.read (y.ctx + strandOffset y x.id.sidx + 512) 8) = x.pc.toNat) ∧
            (t.part x.id.pid).held = p.held ++ [r] ∧ blk r.bytes 8 1 = Cause.preempt.code ∧ blk r.bytes 10 1 = 0 ∧
            blk r.bytes 16 8 = x.pc.toNat))

/-- The strand that RESUME finds at the place of a handle: stopped, of the partition, with the handle's stop sequence (22 R316). -/
structure Sys2Proof.Claim.StoppedAt (s : State) (h : Word) (x : Strand) (g : Gang) : Prop where
  handle : Handle s h
  here : s.strand? (keyIn h) = some x
  compute : x.fliven = false ∧ x.id.pid = s.me.part
  stopped : x.status = .stopped ∧ x.stopSeq = seqIn h
  gang : s.gang? x.id.gang = some g

/-- The word at an offset of the strand block of a gang in its context block (25 R348). -/
def Sys2Proof.Claim.savedWord (s : State) (g : Gang) (sidx o : Nat) : Word :=
  BitVec.ofNat 64 (natOfBytes (s.mem.read (g.ctx + strandOffset g sidx + o) 8))

/-- R316 R353 R354 R355: RESUME with a malformed handle or action raises ILLEGAL; with a handle that no stopped strand answers to it
returns 1 (the model's log entry 32), of another stop of the strand at that place 2, with action 1 and no TRAPH in the saved context 3.
With action 0 the strand goes on from its saved context, at once when no other strand of its gang is stopped, else once the last one is
resumed; with action 1 at TRAPH, told by s60 to s62 how it stopped; a halted gang whose last stopped strand is resumed waits for its
place. Action 2 ends the gang, action 3 the launch. That the reserved bits of TRAPH in an edited block are dropped, that a block is read
unchecked, and that s61 takes the saved PC, after TRAP and BREAK the next word, are the model's readings (log entries 14, 63 and 19). -/
def Sys2Proof.Claim.ResumeActs : Prop :=
  ∀ (d a b : SReg) (s : State), s.me.level.num ≤ 1 → Free s [d, a, b] → s.me.ord.path = [] → s.me.fliven = true →
    s.me.wait.on_ = none → OnePlace s →
    (let h := s.rd a
     let k := keyIn h
     (Idle s → 3 < (s.rd b).toNat ∨ ¬ Handle s h → exec (.resume d a b) s =
       .next (takeTrap 0 (encode (.resume d a b)).toNat { cause := .illegal } s)) ∧
     (Handle s h → (s.rd b).toNat ≤ 3 →
       (∀ x, s.strand? k = some x → x.fliven = true ∨ x.status ≠ .stopped ∨ x.id.pid ≠ s.me.part) →
       (∀ g ∈ s.gangs, ∀ q ∈ g.2.saved, q.1 = k → q.2.status ≠ .stopped) →
       exec (.resume d a b) s = .next (passed (s.wr d 1))) ∧
     (∀ x, Handle s h → (s.rd b).toNat ≤ 3 → s.strand? k = some x → x.fliven = false → x.id.pid = s.me.part → x.status = .stopped →
       x.stopSeq ≠ seqIn h → (∀ g ∈ s.gangs, ∀ q ∈ g.2.saved, q.1 = k → q.2.stopSeq ≠ seqIn h) → seqIn h ≠ 0 ∨ k % 4 ≠ 0 →
       exec (.resume d a b) s = .next (passed (s.wr d 2))) ∧
     (∀ (x : Strand) (g : Gang), StoppedAt s h x g →
       (s.rd b = 1 → (if g.ctx = 0 then x.traph else savedWord s g x.id.sidx 608 &&& 0xFFFFFFFFFFFC) = 0 →
         exec (.resume d a b) s = .next (passed (s.wr d 3))) ∧
       (s.rd b = 0 → g.state = .running → ∃ t y, exec (.resume d a b) s = .next t ∧ (d ≠ 0 → t.rd d = 0) ∧ t.me.pc = s.me.pc + 4 ∧
         t.strand? k = some y ∧ y.stopped = none ∧
         (Mates s x.id.gang k (· ≠ .stopped) → y.status = .ready) ∧ (¬ Mates s x.id.gang k (· ≠ .stopped) → y.status = .placed) ∧
         (g.ctx = 0 → y.pc = x.pc ∧ y.regs = x.regs ∧ y.level = x.level) ∧
         (g.ctx ≠ 0 → y.pc = savedWord s g x.id.sidx 512 ∧ ∀ i : Fin 64, i ≠ 0 → y.regs[i] = savedWord s g x.id.sidx (8 * i)) ∧
         ∀ j z, j ≠ k → j ≠ s.key → s.strand? j = some z → z.fliven = true ∨ z.id.gang ≠ x.id.gang → t.strand? j = some z) ∧
       (∀ f, s.rd b = 1 → x.traph ≠ 0 → g.state = .running → g.ctx = 0 → x.stopped = some f → x.stopKind = 0 →
         ∃ t y, exec (.resume d a b) s = .next t ∧ (d ≠ 0 → t.rd d = 0) ∧ t.strand? k = some y ∧ y.pc = x.traph ∧ y.level = .k ∧
           entriesOf y.queue = [] ∧ y.regs[60] = BitVec.ofNat 64 (f.cause.code + 256 * f.sub) ∧ y.regs[61] = x.pc ∧
           y.regs[62] = if f.cause = .trap then f.info else f.addr) ∧
       (s.rd b = 2 → ∃ t, exec (.resume d a b) s = .next t ∧ (d ≠ 0 → t.rd d = 0) ∧ t.me.pc = s.me.pc + 4 ∧
         ∀ y, t.gang? x.id.gang = some y → y.state = .ended) ∧
       (s.rd b = 3 → ∃ t, exec (.resume d a b) s = .next t ∧ (d ≠ 0 → t.rd d = 0) ∧ t.me.pc = s.me.pc + 4 ∧
         (∀ m, Map.get? t.launches x.id.launch = some m → m.done = true) ∧
         ∀ y ∈ t.gangs, y.2.launch = x.id.launch → y.2.state = .ended)) ∧
     ∀ (n : Nat) (x : Strand) (g : Gang), Handle s h → s.strand? k = none → s.gang? n = some g → g.part = s.me.part → g.state = .halted →
       g.saved = [(k, x)] → x.status = .stopped → x.stopSeq = seqIn h → g.ctx = 0 → s.rd b = 0 →
       (∀ q ∈ s.gangs, q.1 ≠ n → ∀ r ∈ q.2.saved, r.1 = k → r.2.stopSeq ≠ seqIn h) →
       ∃ t y z, exec (.resume d a b) s = .next t ∧ (d ≠ 0 → t.rd d = 0) ∧ t.me.pc = s.me.pc + 4 ∧ t.gang? n = some y ∧
         y.state = .preempted ∧ y.saved = [(k, z)] ∧ z.status = .placed ∧ z.pc = x.pc ∧ z.regs = x.regs ∧ z.level = x.level)

/-- R310 R316 R317 R318 R353: FRQPOP takes records, HALT stops gangs, and RESUME acts on the strands that they name. What rests
on the model's log entries 32, 55, 19, 14 and 63 is named at each part. -/
def Obligations.FlivenServesItsStrands : Prop := FrqpopTakesRecords ∧ HaltStopsGangs ∧ ResumeActs

/-! Vector memory (13_ref_memory). -/

/-- The entry has completed: the queue is empty, and of the strand only registers, masks, stream slots, flags, HSPAN, EFC and the notes of
the memory order may have changed. -/
structure Sys2Proof.Claim.Completed (u t : State) : Prop where
  me : t.me = { u.me with
    regs := t.me.regs, fcsr := t.me.fcsr, efc := t.me.efc, hspan := t.me.hspan, queue := [], ord := t.me.ord, wait := t.me.wait
    v := { u.me.v with slots := t.me.v.slots, masks := t.me.v.masks, streams := t.me.v.streams } }
  rest : t.others = u.others ∧ t.shoots = u.shoots ∧ t.launches = u.launches

/-- Scalar registers, flags, EFC and masks are as the entry found them. -/
def Sys2Proof.Claim.Plain (u t : State) : Prop :=
  t.me.regs = u.me.regs ∧ t.me.fcsr = u.me.fcsr ∧ t.me.efc = u.me.efc ∧ t.me.hspan = u.me.hspan ∧ t.me.v.masks = u.me.v.masks ∧
  t.me.v.streams = u.me.v.streams

/-- No byte of memory or scratchpad changed. -/
def Sys2Proof.Claim.SameBytes (u t : State) : Prop := ∀ l, byteAt t l = byteAt u l

/-- The governed elements of a mask, in ascending order. -/
def Sys2Proof.Claim.governedOf (u : State) (m : MReg) : List Nat := (List.range u.me.v.vl).filter fun i => governs u m i

/-- The state once the translations of some accesses have been asked for. -/
def Sys2Proof.Claim.asked (u : State) (as_ : List Word) : State := as_.foldl (fun s a => touch s u.agent a) u

/-- Each of some elements of n bytes at its address meets the checks of an access, at a place. -/
def Sys2Proof.Claim.Reach (u : State) (acc : Access) (n : Nat) (is : List Nat) (addr : Nat → Word) (p : Nat → Loc) : Prop :=
  ∀ i ∈ is, ∃ g e, check (asked u (is.map addr)) u.agent acc (addr i) n n = .ok { loc := p i, gen := g, leaf := e }

/-- Two places in one line are in pages of one type behind one gateway slice. -/
def Sys2Proof.Claim.OneWay (is : List Nat) (p : Nat → Loc) : Prop :=
  ∀ i ∈ is, ∀ j ∈ is, ∀ a b ty ty' g g', p i = .gen a ty g → p j = .gen b ty' g' → a / 128 = b / 128 → ty = ty' ∧ g = g'

/-- The L1 of the strand's core has room for the lines of n accesses, so that none leaves before it is read (01 R6; log entry 70). -/
def Sys2Proof.Claim.RoomInL1 (u : State) (n : Nat) : Prop := (u.core u.myCore).l1.length + n ≤ 1024

/-- The address of element i of VLD and VST: the stride is s[B], or the element size where B is 0 (R235). -/
def Sys2Proof.Claim.strided (s : State) (a b : SReg) (n i : Nat) : Word :=
  s.rd a + BitVec.ofNat 64 i * (if b = 0 then BitVec.ofNat 64 n else s.rd b)

/-- The address of element i by the 32-bit offsets of a register (R238). -/
def Sys2Proof.Claim.offsetOf (s u : State) (a : SReg) (b : VReg) (i : Nat) : Word := s.rd a + BitVec.ofNat 64 ((reg u b).elem 32 i)

/-- R235 R238 R239: VLD but its E2M1 form, VLDX and VLDB complete when every governed element meets its checks, write what each reads under the
tag of the form, and leave the other elements, the sidecar, every byte and every other register alone; VLDB writes 0 where an
index lies outside its bounds and says so in m7. -/
def Obligations.VectorLoadsGatherElements : Prop :=
  ∀ (m : MReg) (v bv : VReg) (a bs : SReg) (ty : LoadType) (uc : Bool) (s u : State) (p : Nat → Loc),
    (let t := ty.tag
     let n := t.width / 8
     let is := governedOf u m
     OneWay is p → RoomInL1 u is.length → u.me.ord.path = [] → NothingSent u → fits u t.width →
     (Enters (.vld m v a bs ty uc) false s u → t ≠ .e2m1 → Reach u .vload n is (strided s a bs n) p →
       ∃ r, exec (.vld m v a bs ty uc) s = .next r ∧ Completed u r ∧ Plain u r ∧ SameBytes u r ∧
         Wrote u r v t.width t (governs u m) fun i => numberSeen u (if uc then .uc else .si) (p i) n) ∧
     (Enters (.vldx m v a bv ty) false s u → t ≠ .e2m1 → (reg u bv).tag ∈ offsetTags → fits u 32 →
       Reach u .vload n is (offsetOf s u a bv) p →
       ∃ r, exec (.vldx m v a bv ty) s = .next r ∧ Completed u r ∧ Plain u r ∧ SameBytes u r ∧
         Wrote u r v t.width t (governs u m) fun i => numberSeen u .si (p i) n) ∧
     (let x := fun i => (reg u bv).elem 32 i
      let inside := fun i => decide ((s.rd (a + 1)).toNat % 2 ^ 32 ≤ x i ∧ x i < (s.rd (a + 1)).toNat / 2 ^ 32)
      Enters (.vldb m v a bv ty) false s u → t ≠ .e2m1 → (reg u bv).tag ∈ offsetTags → fits u 32 →
      Reach u .vload n (is.filter inside) (fun i => s.rd a + BitVec.ofNat 64 (x i * n)) p →
      ∃ r, exec (.vldb m v a bv ty) s = .next r ∧ Completed u r ∧ SameBytes u r ∧ r.me.regs = u.me.regs ∧ r.me.fcsr = u.me.fcsr ∧
        Wrote u r v t.width t (governs u m) (fun i => if inside i then numberSeen u .si (p i) n else 0) ∧
        WroteMask u r 7 (governs u m) inside))

/-- How far a byte lies into the n bytes at a place, if it does. -/
def Sys2Proof.Claim.within (l : Loc) (n : Nat) (x : Loc) : Option Nat :=
  match l, x with
  | .gen a _ _, .gen b _ _ => if a ≤ b ∧ b < a + n then some (b - a) else none
  | .spad g c o, .spad g' c' o' => if g = g' ∧ c % 8 = c' % 8 ∧ o ≤ o' ∧ o' < o + n then some (o' - o) else none
  | _, _ => none

/-- The byte that the last of some stores of n bytes leaves at a place, if one reaches it. -/
def Sys2Proof.Claim.lastStored (is : List Nat) (p : Nat → Loc) (n : Nat) (val : Nat → Nat) (x : Loc) : Option Byte :=
  is.reverse.findSome? fun i => (within (p i) n x).map fun k => BitVec.ofNat 8 (val i / 256 ^ k)

/-- The byte's page is in its frame, not in its backing area (05 R74). -/
def Sys2Proof.Claim.InFrame (u : State) : Loc → Prop
  | .gen _ _ _ => True
  | .spad g c o => ∀ y, u.gang? g = some y → (c % 8, o / 0x4000) ∉ y.evicted

/-- After some stores in ascending order every byte holds what the last store to it left, and is as it was where none reached it. -/
def Sys2Proof.Claim.StoredAll (u t : State) (is : List Nat) (p : Nat → Loc) (n : Nat) (val : Nat → Nat) : Prop :=
  ∀ x, InFrame u x → byteAt t x = (lastStored is p n val x).getD (byteAt u x)

/-- Elements that lie apart: no byte belongs to two of them. -/
def Sys2Proof.Claim.Disjoint (is : List Nat) (p : Nat → Loc) (n : Nat) : Prop :=
  ∀ i ∈ is, ∀ j ∈ is, i ≠ j → ∀ x, within (p i) n x = none ∨ within (p j) n x = none

/-- What the element of VREDM leaves at its place (R240, 05 R79). -/
def Sys2Proof.Claim.reduced (o : RedOp) (t : Tag) (old x : Nat) : Int :=
  match o with
  | .add => old + x
  | .fadd => (faddElem .f32 .rne old x).1
  | .max => max (sx t.width old) (sx t.width x)
  | .min => min (sx t.width old) (sx t.width x)
  | .maxn => max old x
  | .minn => min old x
  | .and => (old &&& x : Nat)
  | .or => (old ||| x : Nat)

/-- R77 R78 R236 R238 R240: VST of every tag but E2M1, VSTX and VREDM complete when every governed element meets its checks; the stores of the
elements reach memory in ascending order and no other byte changes, nor any register; VREDM, on elements that lie apart and with
no other message on its way, combines each element with the old value of its place. -/
def Obligations.VectorStoresScatterElements : Prop :=
  ∀ (m : MReg) (v bv : VReg) (a bs : SReg) (uc : Bool) (o : RedOp) (s u : State) (p : Nat → Loc),
    (let t := (reg u v).tag
     let n := t.width / 8
     let is := governedOf u m
     let val := fun i => (reg u v).elem t.width i
     t ≠ .e2m1 → u.me.ord.path = [] → NothingSent u → fits u t.width →
     (Enters (.vst m v a bs uc) false s u → Reach u .vstore n is (strided s a bs n) p →
       ∃ r, exec (.vst m v a bs uc) s = .next r ∧ Completed u r ∧ Plain u r ∧ r.me.v.slots = u.me.v.slots ∧ StoredAll u r is p n val) ∧
     (Enters (.vstx m v a bv) false s u → (reg u bv).tag ∈ offsetTags → fits u 32 → Reach u .vstore n is (offsetOf s u a bv) p →
       ∃ r, exec (.vstx m v a bv) s = .next r ∧ Completed u r ∧ Plain u r ∧ r.me.v.slots = u.me.v.slots ∧ StoredAll u r is p n val) ∧
     (Enters (.vredm m v a bv o) false s u → (reg u bv).tag ∈ offsetTags → reducible o t → fits u 32 →
       (∀ c ∈ u.cores, c.2.redMsgs = []) → Disjoint is p n → (∀ i ∈ is, InFrame u (p i)) → Reach u .vstore n is (offsetOf s u a bv) p →
       ∃ r, exec (.vredm m v a bv o) s = .next r ∧ Completed u r ∧ Plain u r ∧ r.me.v.slots = u.me.v.slots ∧
         StoredAll u r is p n fun i => (reduced o t (numberAt u (p i) n) (val i) % (256 ^ n : Nat)).toNat))

/-- R237: the E2M1 forms of VLD and VST move nibbles, two to a byte and the lower element in bits 3–0, and with each block that holds a
governed element its two sidecar bytes; a store leaves the other nibble of its byte alone. The sidecar base must be even, or MISALIGN is
raised, also where no element is governed; that its address is then the base is the model's reading (log entry 41). -/
def Obligations.NibblesMoveWithTheirSidecars : Prop :=
  ∀ (m : MReg) (v : VReg) (a bs : SReg) (uc : Bool) (s u : State) (p q : Nat → Loc),
    (let is := governedOf u m
     let ks := (List.range 256).filter fun k => is.any fun i => i / 32 == k
     let el := fun i => s.rd a + BitVec.ofNat 64 (i / 2)
     let sc := fun k => s.rd bs + BitVec.ofNat 64 (2 * k)
     let w := asked u ((nibbleAccesses (s.rd a) (s.rd bs) is).map fun x => x.2.1)
     let rt := fun (i : ReqType) => if uc then ReqType.uc else i
     u.me.ord.path = [] → NothingSent u → fits u 4 →
     (is = [] → (s.rd bs).toNat % 2 = 1 → (Enters (.vld m v a bs .e2m1 uc) false s u → ∃ r, exec (.vld m v a bs .e2m1 uc) s = .next r ∧
         StopsAtVcp u r (entryFor s (.vld m v a bs .e2m1 uc)) { cause := .misalign, addr := s.rd bs } ∧ r.me.v = u.me.v) ∧
       (Enters (.vst m v a bs uc) false s u → (reg u v).tag = .e2m1 → ∃ r, exec (.vst m v a bs uc) s = .next r ∧
         StopsAtVcp u r (entryFor s (.vst m v a bs uc)) { cause := .misalign, addr := s.rd bs } ∧ r.me.v = u.me.v)) ∧
     ((s.rd bs).toNat % 2 = 0 → Enters (.vld m v a bs .e2m1 uc) false s u → OneWay is p → OneWay ks q → RoomInL1 u (is.length + ks.length) →
       (∀ i ∈ is, ∀ k ∈ ks, ∀ x y ty ty' g g', p i = .gen x ty g → q k = .gen y ty' g' → x / 128 = y / 128 → ty = ty' ∧ g = g') →
       (∀ i ∈ is, ∃ g e, check w u.agent .vload (el i) 1 1 = .ok { loc := p i, gen := g, leaf := e }) →
       (∀ k ∈ ks, ∃ g e, check w u.agent .vload (sc k) 2 2 = .ok { loc := q k, gen := g, leaf := e }) →
       ∃ r, exec (.vld m v a bs .e2m1 uc) s = .next r ∧ Completed u r ∧ Plain u r ∧ SameBytes u r ∧
         WroteData u r v 4 .e2m1 (governs u m) (fun i => (numberSeen u (rt .si) (p i) 1 / 16 ^ (i % 2) % 16 : Nat)) ∧
         ∀ k, k < 256 → (reg r v).block k =
           if k ∈ ks then (numberSeen u (rt .si) (q k) 2 % 256, numberSeen u (rt .si) (q k) 2 / 256) else (reg u v).block k) ∧
     ((s.rd bs).toNat % 2 = 0 → Enters (.vst m v a bs uc) false s u → (reg u v).tag = .e2m1 → (∀ i ∈ is, InFrame u (p i)) →
       (∀ i ∈ is, ∃ g e, check w u.agent .vstore (el i) 1 1 = .ok { loc := p i, gen := g, leaf := e }) →
       (∀ k ∈ ks, ∃ g e, check w u.agent .vstore (sc k) 2 2 = .ok { loc := q k, gen := g, leaf := e }) →
       (∀ i ∈ is, ∀ j ∈ is, i / 2 ≠ j / 2 → ∀ x, within (p i) 1 x = none ∨ within (p j) 1 x = none) → Disjoint ks q 2 →
       (∀ i ∈ is, ∀ k ∈ ks, ∀ x, within (p i) 1 x = none ∨ within (q k) 2 x = none) →
       ∃ r, exec (.vst m v a bs uc) s = .next r ∧ Completed u r ∧ Plain u r ∧ r.me.v.slots = u.me.v.slots ∧
         (∀ i ∈ is, numberAt r (p i) 1 / 16 ^ (i % 2) % 16 = (reg u v).elem 4 i) ∧
         (∀ i ∈ is, (∀ j ∈ is, j ≠ i → j / 2 ≠ i / 2) →
           numberAt r (p i) 1 / 16 ^ ((i + 1) % 2) % 16 = numberAt u (p i) 1 / 16 ^ ((i + 1) % 2) % 16) ∧
         (∀ k ∈ ks, numberAt r (q k) 2 = ((reg u v).block k).1 + 256 * ((reg u v).block k).2) ∧
         ∀ x, InFrame u x → (∀ i ∈ is, within (p i) 1 x = none) → (∀ k ∈ ks, within (q k) 2 x = none) → byteAt r x = byteAt u x))

/-! The matrix state (14_ref_engines). -/

/-- Of the core only some accumulator rows changed. -/
def Sys2Proof.Claim.RowsOnly (u t : State) (a n : Nat) : Prop :=
  (t.core u.myCore).tiles = (u.core u.myCore).tiles ∧
  (∀ r, r < a ∨ a + n ≤ r → (t.core u.myCore).accRow r = (u.core u.myCore).accRow r) ∧
  ∀ c, c ≠ u.myCore → t.core c = u.core c

/-- Of the core only one tile changed. -/
def Sys2Proof.Claim.TileOnly (u t : State) (d : TReg) : Prop :=
  (t.core u.myCore).acc = (u.core u.myCore).acc ∧ (∀ k, k ≠ d → (t.core u.myCore).tile k = (u.core u.myCore).tile k) ∧
  ∀ c, c ≠ u.myCore → t.core c = u.core c

/-- FCSR holds the flags it held and those, among bits 7 to 3, that some of the results of a list raised; nothing else of it changed (03
R42). -/
def Sys2Proof.Claim.Flagged (u t : State) (l : List Nat) : Prop :=
  ∀ j, t.me.fcsr.getLsbD j = (u.me.fcsr.getLsbD j || (decide (3 ≤ j ∧ j ≤ 7) && l.any fun x => x.testBit j))

/-- Column k of an accumulator row after a row, with its flags: an I8 product sum modulo 2^32 onto I32, or the blocks of 04 R59 onto F32. -/
def Sys2Proof.Claim.accumulated (u : State) (kind : AccKind) (v : Slot) (a : Nat) (row : RowBlocks) (k : Nat) : Nat × Nat :=
  let old := elemAt ((u.core u.myCore).accRow a).bits.toNat 32 k
  if kind = .i32 then (((old + (row.flatten.map fun x => sx 8 (v.elem 8 x.2.2) * sx 8 (x.1.bitsAt x.2.1 k)).sum) % (2 ^ 32 : Nat)).toNat, 0)
  else addBlocks old (row.map fun b => b.map fun x => ((v.exact x.2.2).1, (x.1.exact x.2.1 k).1))

/-- Rows accumulate, and raise the flags of their roundings (09 R145). -/
def Sys2Proof.Claim.RowsAdd (u t : State) (kind : AccKind) (v : Slot) (a0 n : Nat) (row : Nat → RowBlocks) : Prop :=
  (∀ j, j < n → ((t.core u.myCore).accRow (a0 + j)).kind = kind ∧ ∀ k, k < 128 →
    elemAt ((t.core u.myCore).accRow (a0 + j)).bits.toNat 32 k = (accumulated u kind v (a0 + j) (row j) k).1 % 2 ^ 32) ∧
  Flagged u t ((List.range n).flatMap fun j => (List.range 128).map fun k => (accumulated u kind v (a0 + j) (row j) k).2)

/-- R141 R142 R143 R144 R145 R146 R257 R258 R260: MROW and MROWS complete where tags, lengths and row kinds suit and no flag is trapped, and add the products
of their rows to 128 columns of the accumulator rows named, with the flags of the roundings in FCSR; MZERO empties the rows named. Nothing
else of the core changes. That a block with no position that takes part adds nothing, whatever its scale, is 09 R144, which the model
follows against a sentence of 04 R50 (log entry 58). -/
def Obligations.MatrixRowsAccumulate : Prop :=
  (∀ (d : TReg) (a : VReg) (b : SReg) (s u : State), Enters (.mrow d a b) true s u → noFpTraps u →
    (let v := reg u a
     let t := (u.core u.myCore).tile d
     let n := u.me.v.vl / t.pitch
     let a0 := (s.rd b).toNat
     pairAccepted v.tag t.tag = true → fits u v.tag.width → u.me.v.vl % t.pitch = 0 → (n = 0 ∨ a0 + n ≤ 256) →
     (∀ j, j < n → ((u.core u.myCore).accRow (a0 + j)).kind ∈ [.none, t.kind]) →
     ∃ r, exec (.mrow d a b) s = .next r ∧ Completed u r ∧ SameBytes u r ∧ RowsOnly u r a0 n ∧ r.me.regs = u.me.regs ∧
       r.me.v.slots = u.me.v.slots ∧ RowsAdd u r t.kind v a0 n (denseRow t))) ∧
  (∀ (m : MReg) (d : TReg) (a : VReg) (b : SReg) (s u : State), Enters (.mrows m d a b) true s u → noFpTraps u →
    (let v := reg u a
     let t := (u.core u.myCore).tile d
     let t' := (u.core u.myCore).tile (d + 1)
     let n := u.me.v.vl / (2 * t.depth)
     let a0 := (s.rd b).toNat
     pairAccepted v.tag t.tag = true → t'.tag = t.tag → t'.depth = t.depth → fits u v.tag.width → u.me.v.vl % (2 * t.depth) = 0 →
     (u.me.v.vl = 0 ∨ a0 + n ≤ 256) → (∀ j, j < n → ((u.core u.myCore).accRow (a0 + j)).kind ∈ [.none, t.kind]) →
     ∃ r, exec (.mrows m d a b) s = .next r ∧ Completed u r ∧ SameBytes u r ∧ RowsOnly u r a0 n ∧ r.me.regs = u.me.regs ∧
       r.me.v.slots = u.me.v.slots ∧
       RowsAdd u r t.kind v a0 n (sparseRow t t' (((List.range u.me.v.vl).filter fun i => maskBit u m i).mapIdx fun k i => (i, k))))) ∧
  ∀ (a b : SReg) (s u : State), Enters (.mzero a b) true s u → (s.rd b = 0 ∨ (s.rd a).toNat + (s.rd b).toNat ≤ 256) →
    ∃ r, exec (.mzero a b) s = .next r ∧ Completed u r ∧ Plain u r ∧ SameBytes u r ∧ r.me.v.slots = u.me.v.slots ∧
      RowsOnly u r (s.rd a).toNat (s.rd b).toNat ∧
      ∀ k, (s.rd a).toNat ≤ k → k < (s.rd a).toNat + (s.rd b).toNat → (r.core u.myCore).accRow k = {}

/-- An element of an accumulator row as MDRAIN delivers it, with its flags: converted by its kind, zero of a row that is empty (R151). -/
def Sys2Proof.Claim.drained (u : State) (t : Tag) (a0 i : Nat) : Nat × Nat :=
  let x := (u.core u.myCore).accRow (a0 + i / 128)
  match x.kind with
  | .none => (0, 0)
  | .f32 => convertElem .f32 t (rmOf u.me.fcsr) (elemAt x.bits.toNat 32 (i % 128))
  | .i32 => convertElem .i32 t (rmOf u.me.fcsr) (elemAt x.bits.toNat 32 (i % 128))

/-- R148 R151 R153 R259 R261 R262: MDRAIN to a target that suits the row kinds (converted, quantised to E2M1, or with error feedback), TSET, TWROW
and TRCOL complete and move elements between rows, tiles and registers as their rules say; what they name as destination and, of MDRAIN
and TWROW, the flags of their conversions are all that changes. That a row of kind NONE drains zeros and leaves the carry of error feedback as it is, is the model's reading (log entry
25). -/
def Obligations.MatrixMovesComplete : Prop :=
  (∀ (d : VReg) (a : SReg) (t : Tag) (s u : State), Enters (.mdrain d a false t) true s u → noFpTraps u → t ≠ .e2m1 →
    (let n := u.me.v.vl / 128
     let a0 := (s.rd a).toNat
     fits u t.width → u.me.v.vl % 128 = 0 → (n = 0 ∨ a0 + n ≤ 256) →
     (∀ j, j < n → drains ((u.core u.myCore).accRow (a0 + j)).kind t = true) →
     ∃ r, exec (.mdrain d a false t) s = .next r ∧ Completed u r ∧ SameBytes u r ∧ r.cores = u.cores ∧ r.me.regs = u.me.regs ∧
       Flagged u r ((List.range u.me.v.vl).map fun i => (drained u t a0 i).2) ∧
       Wrote u r d t.width t (fun i => decide (i < u.me.v.vl)) fun i => (drained u t a0 i).1)) ∧
  (∀ (d : VReg) (a : SReg) (t : Tag) (ef : Bool) (s u : State), Enters (.mdrain d a ef t) true s u → noFpTraps u →
    (let n := u.me.v.vl / 128
     let a0 := (s.rd a).toNat
     let x := fun i => (u.core u.myCore).accRow (a0 + i / 128)
     let b := fun i => if (x i).kind = .none then 0 else elemAt (x i).bits.toNat 32 (i % 128)
     let q := quantizeAll ((List.range u.me.v.vl).map fun i => (i, fmtF32.value (b i), isSnan .f32 (b i)))
     let e := drainChain t ((List.range u.me.v.vl).map fun i =>
       (i, if (x i).kind = .none then none else some (fmtF32.value (b i), snanFlag .f32 (b i)))) u.me.efc.toNat
     fits u t.width → u.me.v.vl % 128 = 0 → (n = 0 ∨ a0 + n ≤ 256) →
     (∀ j, j < n → drains ((u.core u.myCore).accRow (a0 + j)).kind t = true) →
     (t = .e2m1 → ∃ r, exec (.mdrain d a ef t) s = .next r ∧ Completed u r ∧ SameBytes u r ∧ r.cores = u.cores ∧
       r.me.fcsr = orFlags u.me.fcsr q.2.2 ∧
       WroteData u r d 4 t (fun i => decide (i < u.me.v.vl)) (fun j => ((q.1.find? fun c => c.1 == j).map Prod.snd).getD 0) ∧
       ∀ k, k < 256 → (reg r d).block k = match q.2.1.find? fun c => c.1 == k with
         | some c => (c.2.1 % 256, c.2.2 % 256)
         | none => (reg u d).block k) ∧
     (t ∈ [Tag.f16, .bf16, .e4m3, .e5m2] → ef = true → ∃ r, exec (.mdrain d a ef t) s = .next r ∧ Completed u r ∧ SameBytes u r ∧
       r.cores = u.cores ∧ r.me.efc = BitVec.ofNat 32 e.2.1 ∧ r.me.fcsr = orFlags u.me.fcsr e.2.2 ∧
       Wrote u r d t.width t (fun i => decide (i < u.me.v.vl)) fun j => ((e.1.find? fun c => c.1 == j).map Prod.snd).getD 0))) ∧
  (∀ (d : TReg) (t : Tag) (b : SReg) (s u : State), Enters (.tset d t b) true s u → 1 ≤ (s.rd b).toNat → (s.rd b).toNat ≤ tileK t →
    ∃ r, exec (.tset d t b) s = .next r ∧ Completed u r ∧ Plain u r ∧ SameBytes u r ∧ r.me.v.slots = u.me.v.slots ∧ TileOnly u r d ∧
      (r.core u.myCore).tile d = { (u.core u.myCore).tile d with tag := t, depth := (s.rd b).toNat }) ∧
  (∀ (d : TReg) (a : VReg) (b : SReg) (s u : State), Enters (.twrow d a b) true s u → noFpTraps u →
    (let v := reg u a
     let t := (u.core u.myCore).tile d
     let k0 := (s.rd b).toNat
     t.tag ≠ .e2m1 → t.tag ≠ .raw → v.tag ≠ .e2m1 → v.tag ≠ .e8m0 → v.tag ≠ .raw → fits u v.tag.width → u.me.v.vl % 128 = 0 →
     k0 + u.me.v.vl / 128 ≤ tileK t.tag →
     ∃ r, exec (.twrow d a b) s = .next r ∧ Completed u r ∧ SameBytes u r ∧ r.me.v.slots = u.me.v.slots ∧ r.me.regs = u.me.regs ∧
       Flagged u r ((List.range u.me.v.vl).map fun i => (convertElem v.tag t.tag (rmOf u.me.fcsr) (v.elem v.tag.width i)).2) ∧
       TileOnly u r d ∧ ((r.core u.myCore).tile d).tag = t.tag ∧ ((r.core u.myCore).tile d).depth = t.depth ∧
       ∀ k c, k < tileK t.tag → c < 128 → ((r.core u.myCore).tile d).bitsAt k c =
         if k0 ≤ k ∧ k < k0 + u.me.v.vl / 128 then
           (convertElem v.tag t.tag (rmOf u.me.fcsr) (v.elem v.tag.width (128 * (k - k0) + c))).1 % 2 ^ t.tag.width
         else t.bitsAt k c)) ∧
  ∀ (d : VReg) (a : TReg) (b : SReg) (s u : State), Enters (.trcol d a b) true s u →
    (let t := (u.core u.myCore).tile a
     let n0 := (s.rd b).toNat
     t.tag ≠ .raw → fits u t.tag.width → u.me.v.vl % t.depth = 0 → n0 + u.me.v.vl / t.depth ≤ 128 →
     (t.tag = .e2m1 → t.depth % 32 = 0) →
     ∃ r, exec (.trcol d a b) s = .next r ∧ Completed u r ∧ Plain u r ∧ SameBytes u r ∧ r.cores = u.cores ∧
       WroteData u r d t.tag.width t.tag (fun i => decide (i < u.me.v.vl)) (fun i => t.bitsAt (i % t.depth) (n0 + i / t.depth)) ∧
       (t.tag ≠ .e2m1 → (reg r d).side = (reg u d).side) ∧
       (t.tag = .e2m1 → ∀ k, k < u.me.v.vl / 32 → k < 256 → (reg r d).block k = t.blockAt (n0 + 32 * k / t.depth) (32 * k % t.depth / 32)))

/-- The n bytes of a gang's scratchpad from a place on one core, as one number. -/
def Sys2Proof.Claim.imageAt (u : State) (c o n : Nat) : Nat := numberAt u (.spad u.me.id.gang c o) n

/-- R149 R263 R264: TLDS loads the image at a 256-byte-aligned address into its tile, and TLDM into that tile of every core named by the low
byte of s[B], with no barrier; the tile of TLDS keeps its tag and depth, those of the other cores take them. -/
def Obligations.TileImagesLoad : Prop :=
  ∀ (d : TReg) (a b : SReg) (s u : State) (c o : Nat),
    (let t := (u.core u.myCore).tile d
     let n := if t.tag = .e2m1 then 18432 else 16384
     let new : Tile := { t with bits := BitVec.ofNat 131072 (imageAt u c o 16384), written := true
                                side := if t.tag = .e2m1 then BitVec.ofNat 16384 (imageAt u c (o + 16384) 2048) else 0 }
     imagePlace u (s.rd a) n = .ok (c, o) →
     (Enters (.tlds d a) true s u → ∃ r, exec (.tlds d a) s = .next r ∧ Completed u r ∧ Plain u r ∧ SameBytes u r ∧
       r.me.v.slots = u.me.v.slots ∧ TileOnly u r d ∧ (r.core u.myCore).tile d = new) ∧
     ((s.rd b).toNat < 256 → (∀ x ∈ u.cores, x.2.tileWrites = []) → (∀ g, u.gang? u.me.id.gang = some g → ∀ k, k < 8 → (s.rd b).toNat / 2 ^ k % 2 = 1 → k ∈ g.cids) →
       Enters (.tldm d a b) true s u → ∃ r, exec (.tldm d a b) s = .next r ∧ Completed u r ∧ Plain u r ∧ SameBytes u r ∧
         r.me.v.slots = u.me.v.slots ∧
         ∀ k, (r.core k).acc = (u.core k).acc ∧ ∀ e, (r.core k).tile e =
           if e = d ∧ k / 8 = u.myCore / 8 ∧ (s.rd b).toNat / 2 ^ (k % 8) % 2 = 1 then new else (u.core k).tile e))

/-! Copies and stream slots (08_copies, 14_ref_engines). -/

/-- Bytes a to a + n − 1 of a core's scratchpad, in frames of the gang's pages. -/
def Sys2Proof.Claim.SpadRange (s : State) (a : Word) (n : Nat) : Prop :=
  a.getLsbD 63 = true ∧ formTrap a = none ∧ a.toNat % 2 ^ 20 + n ≤ 2 ^ 20 ∧ ∃ g, s.gang? s.me.id.gang = some g ∧
    a.toNat / 2 ^ 21 % 8 ∈ g.cids ∧ (a.toNat % 2 ^ 20 + n - 1) / 0x4000 < g.task.spad ∧ g.evicted = []

/-- The place of a scratchpad address. -/
def Sys2Proof.Claim.spadAt (s : State) (a : Word) : Loc :=
  .spad s.me.id.gang (s.myCore / 8 * 8 + a.toNat / 2 ^ 21 % 8) (a.toNat % 2 ^ 20)

/-- The 128 bytes that TCOPY reads as its shape record, as a vector load of the core sees them (R122). -/
def Sys2Proof.Claim.recordSeen (s : State) (l : Loc) : List Byte :=
  (List.range 128).map fun i => BitVec.ofNat 8 (numberSeen s .si (l.plus i) 1)

/-- Every untracked copy holds a whole line. -/
def Sys2Proof.Claim.WholeLines (s : State) : Prop :=
  (∀ c k x, Map.get? (s.core c).l1 k = some x → x.own = false → x.data.length = 128) ∧
  ∀ d k x, Map.get? (s.die d).gate k = some x → x.data.length = 128

/-- What the shape record of a TCOPY of one row finds on a quiet core: the strand decodes and comes first at the copy engine, the record passes
its checks against the barrier and has a row left at the cursor, and its channel has a credit (R122 R124 R126). -/
structure Sys2Proof.Claim.CopiesRow (s : State) (d a b : SReg) (r : Shape) (l : Place) : Prop where
  calm : Calm s ∧ s.me.fliven = false ∧ Free s [d, a, b] ∧ s.me.v.vl = 1
  fresh : s.me.v.vstart = 0 ∧ s.me.v.vdone = 0 ∧ s.me.v.fppend = false
  awake : ∀ g ∈ s.me.v.groups, ∀ x, (s.core s.myCore).groups[g]? = some x → x.asleep = false
  quiet : aheadAtUnit s 1 = [] ∧ (s.core s.myCore).chunks = [] ∧ WholeLines s
  record : (s.rd d).toNat % 65536 + 128 ≤ 65536 ∧ ((s.rd d).getLsbD 63 = true → SpadRange s (s.rd d) 128) ∧
    check (touch s s.agent (s.rd d)) s.agent .vload (s.rd d) 128 1 = .ok l
  shape : r = Shape.ofBytes (recordSeen s l.loc) ∧ r.check s (s.rd d) (s.rd b) = none
  credit : (Map.getD (s.core s.myCore).chans r.chan {}).held < 1024 ∧ (s.rd a).toNat < r.nrows

/-- The strand has passed a TCOPY of one row: VL is its grant, nothing is queued or on the way, and no register changed (R126). -/
def Sys2Proof.Claim.RowCopied (s t : State) : Prop :=
  t.me.v.vl = 1 ∧ t.me.queue = [] ∧ t.me.pc = s.me.pc + 4 ∧ (∀ x, t.rd x = s.rd x) ∧ (t.core s.myCore).chunks = []

/-- R125 R127 R131 R132 R133: TCOPY of one row from a NORMAL page of device memory to another, with the translations of both and of the record
in the buffers and an empty L1, completes: each element stands at its destination, converted where the record names a tag to convert to
(to nearest even, whatever FCSR says), no other byte of memory changes, and the barrier, if one is named, is not broken and waits for
arrivals, has its balance lowered by the bytes that landed. -/
def Sys2Proof.Claim.GenericRowsCopy : Prop :=
  ∀ (d a b : SReg) (s : State) (r : Shape) (l p p' : Place) (pa pb g g' : Nat), CopiesRow s d a b r l → r.rop = 0 → r.mcast = 0 →
    (s.core s.myCore).l1 = [] → s.lostLines = [] →
    (let q := (s.rd a).toNat
     let n := r.e 0
     let src := r.srcRow q
     let dst := r.dstRow q
     let bar := spadAt s (s.rd b)
     let val := fun i => if r.ctag = 0 then numberAt s (.gen (pa + i * r.ssize) .normal g) r.ssize
       else (convertElem (r.srcTag.getD .raw) (r.convTag.getD .raw) .rne (numberAt s (.gen (pa + i * r.ssize) .normal g) r.ssize)).1
     (∀ x ∈ [s.rd d, src, dst], (tlbLookup s s.agent x.toNat).isSome) →
     src.toNat % 65536 + n * r.ssize ≤ 65536 → dst.toNat % 65536 + n * r.dsize ≤ 65536 →
     check s s.agent .copySrc src 1 1 = .ok p → p.loc = .gen pa .normal g → isRemote pa = false →
     check s s.agent .copyDst dst 1 1 = .ok p' → p'.loc = .gen pb .normal g' → isRemote pb = false →
     pa + n * r.ssize ≤ pb ∨ pb + n * r.dsize ≤ pa →
     (s.rd b ≠ 0 → (s.rd b).toNat % 16 = 0 ∧ SpadRange s (s.rd b) 16 ∧ (barrierIn s bar).broken = false ∧ (barrierIn s bar).due ≠ 0 ∧
       -2 ^ 31 ≤ (barrierIn s bar).bal - (n * r.dsize : Nat)) →
     ∃ t, exec (.tcopy d a b) s = .next t ∧ RowCopied s t ∧
       (∀ i, i < n → numberAt t (.gen (pb + i * r.dsize) .normal g') r.dsize = val i % 256 ^ r.dsize) ∧
       (∀ x, x < pb ∨ pb + n * r.dsize ≤ x → t.mem.byte x = s.mem.byte x) ∧
       (s.rd b = 0 → ∀ g c o, byteAt t (.spad g c o) = byteAt s (.spad g c o)) ∧
       (s.rd b ≠ 0 → numberAt t bar 16 = barrierWord { barrierIn s bar with bal := (barrierIn s bar).bal - (n * r.dsize : Nat) } ∧
         ∀ c o, within bar 16 (.spad s.me.id.gang c o) = none →
           byteAt t (.spad s.me.id.gang c o) = byteAt s (.spad s.me.id.gang c o)))

/-- R122 R123 R126 R127 R132 R265: TCOPY of one row of a plain copy within scratchpad, from a record in generic memory that passes its
checks, with no barrier, on a quiet core whose channel has a credit, completes (a record in scratchpad is read as well, which is the
model's reading, log entry 30): VL is the grant of one row, the bytes of the row stand at its destination, and no other byte changes; so
does one of a row in generic memory, with its conversion and its barrier's count (with equal tags a signalling NaN is copied bit for bit:
the model's reading, log entry 28). SFREE frees its stream slot; SBIND of a free register to a record whose pattern is aligned binds the
slot with the read position at 0 and gives the register its tag. -/
def Obligations.CopiesAndStreamSlotsComplete : Prop :=
  (∀ (d a b : SReg) (s : State) (r : Shape) (l : Place), CopiesRow s d a b r l → s.rd b = 0 → RoomInL1 s 2 → r.rop = 0 → r.ctag = 0 →
    r.mcast = 0 →
    (let q := (s.rd a).toNat
     let n := r.e 0 * r.ssize
     SpadRange s (r.srcRow q) n → SpadRange s (r.dstRow q) n →
     (∀ i, i < n → within (spadAt s (r.srcRow q)) n ((spadAt s (r.dstRow q)).plus i) = none) →
     ∃ t, exec (.tcopy d a b) s = .next t ∧ RowCopied s t ∧ t.mem = s.mem ∧
       (∀ i, i < n → byteAt t ((spadAt s (r.dstRow q)).plus i) = byteAt s ((spadAt s (r.srcRow q)).plus i)) ∧
       ∀ c o, within (spadAt s (r.dstRow q)) n (.spad s.me.id.gang c o) = none →
         byteAt t (.spad s.me.id.gang c o) = byteAt s (.spad s.me.id.gang c o))) ∧
  GenericRowsCopy ∧
  (∀ (n : BitVec 2) (s u : State), Enters (.sfree n) false s u →
    ∃ t, exec (.sfree n) s = .next t ∧ Completed u t ∧ SameBytes u t ∧ t.me.v.slots = u.me.v.slots ∧
      ∀ k, k < 4 → t.me.v.stream k = if k = n.toNat then {} else u.me.v.stream k) ∧
  ∀ (d : VReg) (a : SReg) (tag : Tag) (n : BitVec 2) (s u : State) (p : Place), Enters (.sbind d a tag n) false s u →
    (∀ k, k < 4 → k ≠ n.toNat → (u.me.v.stream k).bound = true → (u.me.v.stream k).slot ≠ place u d) →
    check (touch u u.agent (s.rd a)) u.agent .vload (s.rd a) 32 32 = .ok p → isRemote p.loc.pa = false →
    (let num := fun (o k : Nat) => numberSeen u .si (p.loc.plus o) k
     let strides := (List.range 3).map fun k => sx 32 (num (8 + 8 * k) 4)
     (∀ k x, Map.get? (u.core u.myCore).l1 k = some x → x.own = false → x.data.length = 128) →
     num 0 8 < 2 ^ 63 → num 0 8 % (tag.width / 8) = 0 → (∀ x ∈ strides, x % (tag.width / 8 : Nat) = 0) →
     ∃ t, exec (.sbind d a tag n) s = .next t ∧ Completed u t ∧ SameBytes u t ∧ (reg t d).tag = tag ∧ (reg t d).bits = (reg u d).bits ∧
       (∀ k, k ≠ place u d → t.slot k = u.slot k) ∧ t.me.v.stream n.toNat =
         { bound := true, slot := place u d, tag := tag, pos := 0, record := s.rd a, base := BitVec.ofNat 64 (num 0 8), strides := strides
           extents := (List.range 3).map fun k => num (12 + 8 * k) 4, ahead := [] } ∧
       ∀ k, k < 4 → k ≠ n.toNat → t.me.v.stream k = u.me.v.stream k)

/-! Courses (06_courses, 14_ref_engines). -/

/-- An entry of the history words stands at the head of the queue of p, its stream is found bound and at rest, and its sources are
popped in u. -/
structure Sys2Proof.Claim.EntersCourse (i : Instr) (hdr : Word) (s p u : State) (key : Nat) (x : Stream) : Prop where
  calm : Calm s
  decodes : decodeTrap s i false = none
  fresh : s.me.v.vstart = 0 ∧ s.me.v.vdone = 0 ∧ s.me.v.fppend = false
  awake : ∀ g ∈ s.me.v.groups, ∀ y, (s.core s.myCore).groups[g]? = some y → y.asleep = false
  found : ∃ v b, bindStream p hdr = (v, .ok key) ∧ bindingTrap v.me.v (entryFor s i) = none ∧
    popAll v (entryFor s i) = .ready b u none
  stream : Map.get? u.streams key = some x
  sound : x.faulted = false
  still : x.arrivals = [] ∧ x.holds = [] ∧ x.begun = none ∧ ∀ k, k < x.levels → x.cnt k ≤ x.cap k

/-- R83 R89 R267: HAPPEND of n records to a stream whose finest course has room for them, in its newest page too, completes: HEAD has advanced by n and
the records stand behind the items of that course in the order of the register. -/
def Sys2Proof.Claim.HappendAppendsRecords : Prop :=
  ∀ (a : SReg) (b : VReg) (s u : State) (key : Nat) (x : Stream), EntersCourse (.happend a b) (s.rd a) s (pushEntry s (entryFor s (.happend a b))) u key x →
    (let w := x.tag.width
     let n := u.me.v.vl * w / x.recBits
     let recs := (List.range n).map fun j => (reg u b).bits.toNat / 2 ^ (j * x.recBits) % 2 ^ x.recBits
     (∀ y ∈ u.others, y.2.wait.frame = none) → u.me.ord.path = [] → (reg u b).tag = x.tag → fits u w → u.me.v.vl * w % x.recBits = 0 → n ≠ 0 → 0 < x.levels →
     x.freed = [] → x.cnt 0 + n ≤ x.cap 0 → x.head + n ≤ 2 ^ 63 → (∃ pg, (x.course 0).pages.getLast? = some pg ∧ pg.written + n ≤ x.perPage) →
     ∃ t y, exec (.happend a b) s = .next t ∧ Completed u t ∧ Plain u t ∧ t.me.v.slots = u.me.v.slots ∧
       Map.get? t.streams key = some y ∧ y.head = x.head + n ∧ y.first = x.first ∧ (y.course 0).items = (x.course 0).items ++ recs ∧
       (∀ k, 0 < k → y.course k = x.course k) ∧ y.arrivals = [] ∧ ∀ j, j ≠ key → Map.get? t.streams j = Map.get? u.streams j)

/-- The register pair of HSTAT (R271). -/
def Sys2Proof.Claim.statusOf (x : Stream) : Word :=
  BitVec.ofNat 64 (x.faulted.toNat + x.fcause * 256 + x.pend * 65536)

/-- R96 R99 R268 R269 R270 R271: on a stream at rest HLOADR and HLOADE return, for each time at the resolution, the record, the status and
the course that R99 decides, HSYNC completes at once, and HSTAT returns HEAD and the status word; HLOADR of an item in a lost line stops
for DATA-LOST (27 R364), or, of one in a page that SHOOT FREE has taken, for NOT-PRESENT; which of the items' lines are tested, and the
second fault, are the model's readings (log entries 63 and 75). The stream does not change. -/
def Sys2Proof.Claim.HistoryIsRead : Prop :=
  (∀ (d : VReg) (a b : SReg) (s u : State) (key : Nat) (x : Stream),
    EntersCourse (.hloadr d a b) (s.rd a &&& ~~~(127 : Word)) s (pushEntry s (entryFor s (.hloadr d a b))) u key x →
    (let k := (s.rd a).toNat % 128
     let r := x.decide (s.rd b).toNat k
     (k < 16 → x.recBits ≤ u.me.v.lg * 2048 → ∀ f, lostItem u x [(s.rd b).toNat] k = some f → (x.freed = [] → f.cause = .dataLost) ∧
       ∃ t, exec (.hloadr d a b) s = .next t ∧ StopsAtVcp u t (entryFor s (.hloadr d a b)) f ∧ t.streams = u.streams) ∧
     (lostItem u x [(s.rd b).toNat] k = none → k < 16 → r.2.2.2 = none → x.recBits ≤ u.me.v.lg * 2048 → x.elems * x.tag.width ≤ 32768 →
     ∃ t, exec (.hloadr d a b) s = .next t ∧ Completed u t ∧ SameBytes u t ∧ t.streams = u.streams ∧
       t.me.regs = u.me.regs ∧ t.me.hspan = BitVec.ofNat 64 (r.2.1 % 16 + r.1 * 256) ∧
       Wrote u t d x.tag.width x.tag (fun i => decide (i < x.elems)) fun i => elemAt r.2.2.1 x.tag.width i))) ∧
  (∀ (d b : VReg) (a : SReg) (s u : State) (key : Nat) (x : Stream),
    EntersCourse (.hloade d a b) (s.rd a &&& ~~~(127 : Word)) s (pushEntry s (entryFor s (.hloade d a b))) u key x →
    (let k := (s.rd a).toNat % 128
     let r := fun i => x.decide (s.rd (a + 1) + BitVec.ofNat 64 ((reg u b).elem 32 i)).toNat k
     lostItem u x ((List.range u.me.v.vl).map fun i => (s.rd (a + 1) + BitVec.ofNat 64 ((reg u b).elem 32 i)).toNat) k = none →
     k < 16 → x.recBits = x.tag.width → (reg u b).tag ∈ offsetTags → fits u 32 → (∀ i, i < u.me.v.vl → (r i).2.2.2 = none) →
     ∃ t, exec (.hloade d a b) s = .next t ∧ Completed u t ∧ SameBytes u t ∧ t.streams = u.streams ∧ t.me.regs = u.me.regs ∧
       (reg t d).tag = x.tag ∧ (t.slot (place u d + 1)).tag = .n32 ∧
       (∀ i, i < u.me.v.vl → (i + 1) * 32 ≤ 32768 → (reg t d).elem x.tag.width i = (r i).2.2.1 % 2 ^ x.tag.width ∧
         (t.slot (place u d + 1)).elem 32 i = ((r i).2.1 % 16 + (r i).1 * 256) % 2 ^ 32) ∧
       ∀ j, j ≠ place u d → j ≠ place u d + 1 → t.slot j = u.slot j)) ∧
  (∀ (a : SReg) (s u : State) (key : Nat) (x : Stream),
    EntersCourse (.hsync a) (s.rd a &&& ~~~(127 : Word)) s (sleepOn (pushEntry s (entryFor s (.hsync a)))) u key x →
    ∃ t, exec (.hsync a) s = .next t ∧ Completed u t ∧ Plain u t ∧ SameBytes u t ∧ Map.get? t.streams key = some x) ∧
  ∀ (d a : SReg) (s u : State) (key : Nat) (x : Stream), s.me.fliven = false → Free s [d, d + 1, a] → s.later = false → NoReleases s →
    (∀ e ∈ entriesOf s.me.queue, isHistory e.instr = false) → bindStream s (s.rd a) = (u, .ok key) → Map.get? u.streams key = some x →
    x.arrivals = [] → x.begun = none → (x.faulted = true ∨ ∀ k, k < x.levels → x.cnt k ≤ x.cap k) →
    ∃ t, exec (.hstat d a) s = .next t ∧ t.streams = u.streams ∧ t.me.pc = s.me.pc + 4 ∧
      (d ≠ 0 → t.rd d = BitVec.ofNat 64 x.head) ∧ (d + 1 ≠ 0 → t.rd (d + 1) = statusOf x) ∧ ∀ r, r ≠ d → r ≠ d + 1 → t.rd r = s.rd r

/-- R267 to R271: the words of the history lane complete on a stream at rest; which fault stops a load of a lost item is log entries 63
and 75. -/
def Obligations.HistoryWordsComplete : Prop := HappendAppendsRecords ∧ HistoryIsRead

/-! Homes from the lanes, watches, selection (13_ref_memory, 14_ref_engines). -/

/-- The state in which the entry of a watch stands at the head of the queue, its sources popped, and the strand sleeps on it (R254). -/
structure Sys2Proof.Claim.EntersAsleep (i : Instr) (s u : State) : Prop where
  calm : Calm s
  decodes : decodeTrap s i false = none
  fresh : s.me.v.vstart = 0 ∧ s.me.v.vdone = 0 ∧ s.me.v.fppend = false
  awake : ∀ g ∈ s.me.v.groups, ∀ x, (s.core s.myCore).groups[g]? = some x → x.asleep = false
  unbound : bindingTrap s.me.v (entryFor s i) = none
  alone : ∀ n, sharedUnit (entryFor s i) = some n → aheadAtUnit s n = []
  popped : ∃ b, popAll (takenBy (sharedUnit (entryFor s i)) (sleepOn (pushEntry s (entryFor s i)))) (entryFor s i) = .ready b u none

/-- Where an element ranks among the first n keys: how many come before it (R272). -/
def Sys2Proof.Claim.rankOf (n : Nat) (key : Nat → Int) (i : Nat) : Nat :=
  ((List.range n).filter fun j => decide (key i < key j) || (key i == key j && decide (j < i))).length

/-- R106 R107 R246 R248 R254 R272: VAPP appends its packed elements at TAIL and returns the offset, or FULL; VPROPOSE at cells that differ answers for
each as PROPOSE does; VWAITALL and VWAITANY complete when every or some word holds its value, with the mask of those that do not, and
put the strand to sleep before; VTOPK marks the elements of the highest ranks. -/
def Obligations.HomesAnswerTheLanes : Prop :=
  (∀ (d a : SReg) (b : VReg) (s u : State) (l : Place), Enters (.vapp d a b) false s u → (reg u b).tag ≠ .e2m1 →
    fits u (reg u b).tag.width → 0 < u.me.v.vl → check (touch u u.agent (s.rd a)) u.agent (.appendOp true) (s.rd a) 1 1 = .ok l →
    (let f := l.loc.pa / 65536
     let v := touch u u.agent (s.rd a)
     let p := v.app f
     let n := (u.me.v.vl * (reg u b).tag.width / 8 + 7) / 8 * 8
     p.state = .open_ →
     (p.tail + n ≤ 65536 → v.lost (f * 65536 + p.tail) n = false → ∃ t, exec (.vapp d a b) s = .next t ∧ Completed u t ∧ t.me.v.slots = u.me.v.slots ∧
       (d ≠ 0 → t.rd d = BitVec.ofNat 64 p.tail) ∧ (∀ r, r ≠ d → t.rd r = s.rd r) ∧ (t.app f).tail = p.tail + n ∧
       (∀ g, g ≠ f → t.app g = v.app g) ∧
       ∀ x, t.mem.byte x = if f * 65536 + p.tail ≤ x ∧ x < f * 65536 + p.tail + n then
         BitVec.ofNat 8 ((reg u b).bits.toNat % 2 ^ (u.me.v.vl * (reg u b).tag.width) / 256 ^ (x - (f * 65536 + p.tail)))
         else u.mem.byte x) ∧
     (65536 < p.tail + n → ∃ t, exec (.vapp d a b) s = .next t ∧ Completed u t ∧ t.me.v.slots = u.me.v.slots ∧ t.mem = u.mem ∧
       t.apps = v.apps ∧ (d ≠ 0 → t.rd d = BitVec.allOnes 64) ∧ ∀ r, r ≠ d → t.rd r = s.rd r))) ∧
  (∀ (d b : VReg) (a : SReg) (s u : State) (f i : Nat → Nat) (g : Nat → Place), Enters (.vpropose d a b) false s u →
    u.me.ord.path = [] → (reg u d).tag ∈ offsetTags → (reg u b).tag ∈ offsetTags → fits u 32 → u.me.v.vl ≤ 1024 →
    (let w := asked u ((List.range u.me.v.vl).map (offsetOf s u a b))
     (∀ e, e < u.me.v.vl → check w u.agent (.onceOp true) (offsetOf s u a b e) 16 16 = .ok (g e) ∧ f e = (g e).loc.pa / 65536 ∧
       i e = (g e).loc.pa % 65536 / 16) →
     (∀ e k, e < u.me.v.vl → k < u.me.v.vl → e ≠ k → f e ≠ f k ∨ i e ≠ i k) →
     ∃ t, exec (.vpropose d a b) s = .next t ∧ Completed u t ∧ t.me.regs = u.me.regs ∧ t.mem = u.mem ∧
       (t.slot (place u d + 1)).tag = .n32 ∧ (reg t d).tag = (reg u d).tag ∧
       ∀ e, e < u.me.v.vl →
         (let live := (Map.get? w.onces (f e)).any fun o => !o.clearing && o.gen == (g e).gen
          let ans : Nat × Nat := match copyOf w (g e), live, cellAt w (f e) (i e) with
            | some v, _, _ => (v.toNat % 2 ^ 32, 1)
            | none, false, _ => (0, 2)
            | none, true, some v => (v.toNat % 2 ^ 32, 1)
            | none, true, none => ((reg u d).elem 32 e, 0)
          (reg t d).elem 32 e = ans.1 ∧ (t.slot (place u d + 1)).elem 32 e = ans.2 ∧ maskBit t 7 e = (ans.2 == 0) ∧
          (ans.2 = 0 → cellAt t (f e) (i e) = some (BitVec.ofNat 64 ((reg u d).elem 32 e)))))) ∧
  (∀ (d : MReg) (b : VReg) (a : SReg) (all : Bool) (s u : State) (p : Nat → Place), s.me.wto = 0 →
    (let i : Instr := if all then .vwaitall d a b else .vwaitany d a b
     let is := List.range u.me.v.vl
     let met := fun e => numberAt u (p e).loc 4 == (u.slot (place u b + 1)).elem 32 e
     EntersAsleep i s u → NothingSent u → 0 < u.me.v.vl → (reg u b).tag ∈ offsetTags → (u.slot (place u b + 1)).tag ∈ offsetTags → fits u 32 →
     (∀ e ∈ is, check (asked u (is.map (offsetOf s u a b))) u.agent .vload (offsetOf s u a b e) 4 4 = .ok (p e)) →
     ((if all then ∀ e ∈ is, met e = true else ∃ e ∈ is, met e = true) →
       ∃ t, exec i s = .next t ∧ Completed u t ∧ SameBytes u t ∧ t.me.regs = u.me.regs ∧ t.me.v.slots = u.me.v.slots ∧
         WroteMask u t d (fun e => decide (e < u.me.v.vl)) fun e => !met e) ∧
     (¬ (if all then ∀ e ∈ is, met e = true else ∃ e ∈ is, met e = true) → popSlots u.me.v (entryFor s i) = [] →
       ∃ t, exec i s = .next t ∧ t.me.sleepsInLanes = true ∧ t.me.wait.since.isSome ∧ t.me.pc = s.me.pc + 4 ∧ SameBytes u t ∧
         t.me.regs = u.me.regs))) ∧
  ∀ (d : MReg) (a : VReg) (b : SReg) (s u : State), Enters (.vtopk d a b) false s u → (reg u a).tag ∈ intTags ++ floatTags →
    fits u (reg u a).tag.width →
    ∃ t, exec (.vtopk d a b) s = .next t ∧ Completed u t ∧ SameBytes u t ∧ t.me.regs = u.me.regs ∧ t.me.v.slots = u.me.v.slots ∧
      t.me.fcsr = u.me.fcsr ∧ WroteMask u t d (fun i => decide (i < u.me.v.vl)) fun i =>
        decide (rankOf u.me.v.vl (fun j => topKey (reg u a).tag ((reg u a).elem (reg u a).tag.width j)) i < (s.rd b).toNat)

/-! The steps without a word: the platform (27_platform). -/

/-- R357 R359 R361 R362 R366: a start that meets no failure goes through its stages, and READY sets every Fliven strand at the firmware's entry
point; the partition count changes while the part is idle; the power limit is at least 1,800 W; the attestation counter advances
before its signature is released; a correction of NOW of more than 1 ms is one step before READY and else a change of rate;
power loss leaves the counter and what has left the device. The entry point that READY brings, what a power loss leaves, what a new
partition count clears, the number of a report and the form of the management log are the model's choices (log entries 8, 44, 46, 47
and 48). -/
def Obligations.PlatformStepsAct : Prop :=
  (∀ s : State, s.stage = .off → exec (.powerGood true) s = .next { s with stage := .safe } ∧
    ∃ t, exec (.powerGood false) s = .next t ∧ t.stage = .failed) ∧
  (∀ s : State, s.stage = .safe → exec (.diesUp true) s = .next { s with stage := .dies } ∧
    ∃ t, exec (.diesUp false) s = .next t ∧ t.stage = .failed) ∧
  (∀ (s : State) (e : Word), s.stage = .dies → (∀ k, k < 16 → (s.strand? (1024 + k)).isSome) →
    ∃ t, exec (.ready true e) s = .next t ∧ t.stage = .ready ∧
      ∀ k, k < 16 → ∃ x, t.strand? (1024 + k) = some x ∧ x.pc = e) ∧
  (∀ (s : State) (n : Nat), n ∈ [1, 2, 4, 8] → s.stage ≠ .off → s.stage ≠ .failed →
    (∀ p ∈ s.gangs, p.2.state ≠ .placed ∧ p.2.state ≠ .running) →
    (∀ p q, p < s.nparts → q < 64 → (descOf s p q).state = 0) → (∀ p ∈ s.strands, p.2.ord.path = []) →
    (∀ c ∈ s.cores, c.2.chunks = [] ∧ c.2.tileWrites = [] ∧ c.2.redMsgs = [] ∧ c.2.stores = []) → (∀ p ∈ s.apps, p.2.pending = []) →
    ∃ t, exec (.partitionCountSet n) s = .next t ∧ t.nparts = n ∧ t.gangs = [] ∧ t.launches = [] ∧ t.streams = [] ∧ t.stage = s.stage ∧
      ∀ a, t.mem.byte a = if a < 4096 then 0 else s.mem.byte a) ∧
  (∀ (s : State) (w : Nat), s.stage ≠ .off → exec (.powerLimitSet w) s =
    .next (if 1800 ≤ w then { s with powerLimit := w } else { s with mgmtLog := s.mgmtLog ++ [(3, w)] })) ∧
  (∀ (s : State) (x : Nat), s.stage = .ready → ∃ t, exec (.attestationRequest x) s = .next t ∧
    (s.attested < 1048576 → t.attested = s.attested + 1 ∧ (s.later = false → t.reports.getLast? = some (s.attested, x))) ∧
    (1048576 ≤ s.attested → t.attested = s.attested)) ∧
  (∀ (s : State) (d : Int), (s.stage ≠ .ready → 1000000 < d.natAbs →
      exec (.timeCorrection d) s = .next { s with now := ((s.now : Int) + d).toNat }) ∧
    (s.stage = .ready ∨ d.natAbs ≤ 1000000 → ∃ t, exec (.timeCorrection d) s = .next t ∧ t.now = s.now ∧
      t.timeOffset = s.timeOffset + d)) ∧
  ∀ s : State, ∃ t, exec .powerLoss s = .next t ∧ t.stage = .off ∧ t.attested = s.attested ∧ t.reports = s.reports ∧ t.gangs = [] ∧
    ∀ a, t.mem.byte a = if a < Config.hostBase then Config.blankByte else s.mem.byte a

/-- The events of a unit that lie within the window of 24 hours, with one more now (27 R363). -/
def Sys2Proof.Claim.counted (now : Nat) (l : List Nat) : List Nat := (l.filter fun t => decide (now < t + Config.errorWindow)) ++ [now]

/-- R329 R363 R364 R365: a corrected error is counted within its window; the 16th takes a free lane group from the table, and marks a held
one, which leaves the table as it becomes free. A way counts sixteen and is then retired and counts no more; a row with its 16th is
remapped, its bytes as they were, and counts from none: what becomes of the counts is the model's reading (log entry 68). An uncorrectable
read marks its line lost, retires its frame, and its record of KIND 2 waits while the queue is full. A free group sleeps after 10 µs; of
the sleeping groups that strands hold the next four in ascending number wake, 20 ns after the wake began or the batch before them. -/
def Obligations.ErrorsAreCountedAndGroupsSleep : Prop :=
  (∀ (s : State) (c g : Nat) (x : LaneGroup), c < 256 → (s.core c).groups[g]? = some x →
    (let l := counted s.now x.errors
     ∃ t, exec (.correctedSoftError (.laneGroup c g)) s = .next t ∧ t.mem = s.mem ∧ (t.core c).groups[g]? = some { x with
       errors := l, retired := x.retired || (decide (16 ≤ l.length) && x.owner.isNone)
       retireDue := (x.retireDue || decide (16 ≤ l.length)) && x.owner.isSome }) ∧
    (x.retireDue = true → ∀ gs, g ∈ gs → ((freeGroups s c gs).core c).groups[g]? =
      some { x with owner := none, freeSince := s.now, retired := true, retireDue := false }) ∧
    (x.owner = none → x.retired = false → x.freeSince + 10000 ≤ s.now → ∃ t, exec (.laneGroupSleep c g) s = .next t ∧
      (t.core c).groups = (s.core c).groups.set g { x with asleep := true } ∧ ∀ d, d ≠ c → t.core d = s.core d) ∧
    (∀ w, (s.core c).waking = some w → w + 20 ≤ s.now → ∃ t, exec (.laneGroupWakeBatch c) s = .next t ∧ (∀ d, d ≠ c → t.core d = s.core d) ∧
      ((t.core c).waking = none ∨ (t.core c).waking = some (w + 20)) ∧
      (t.core c).groups[g]? = some { x with asleep := x.asleep && !(x.owner.isSome &&
        decide ((((s.core c).groups.take g).filter fun y => y.asleep && y.owner.isSome).length < 4)) }) ∧
    ((∀ w, (s.core c).waking = some w → s.now < w + 20) → ∃ t, exec (.laneGroupWakeBatch c) s = .next t ∧ ∀ d, t.core d = s.core d)) ∧
  (∀ (s : State) (k w : Nat), (let l := (Map.get? s.l2Errors (k * 65536 + w)).getD []
    (l.length < 16 → ∃ t, exec (.correctedSoftError (.l2Way k w)) s = .next t ∧ t = { s with l2Errors := t.l2Errors } ∧
      Map.get? t.l2Errors (k * 65536 + w) = some (counted s.now l)) ∧
    (16 ≤ l.length → exec (.correctedSoftError (.l2Way k w)) s = .next s))) ∧
  (∀ (s : State) (k r : Nat), ∃ t, exec (.correctedSoftError (.memoryRow k r)) s = .next t ∧ t = { s with rowErrors := t.rowErrors } ∧
    (let l := counted s.now ((Map.get? s.rowErrors (k * 2 ^ 40 + r)).getD [])
     Map.get? t.rowErrors (k * 2 ^ 40 + r) = some (if 16 ≤ l.length then [] else l))) ∧
  ∀ (s : State) (a : Nat), a < Config.deviceBytes → a / 128 ∉ s.lostLines →
    (let p := s.part (a / 2 ^ 36 % 8 * s.nparts / 8)
     ∃ t, exec (.uncorrectableRead a) s = .next t ∧ t.lostLines = s.lostLines ++ [a / 128] ∧ a / 65536 ∈ t.retiredFrames ∧
       (p.frqsize ≤ (p.frqtail + 2 ^ 32 - p.frqhead) % 2 ^ 32 →
         ∃ r, (t.part (a / 2 ^ 36 % 8 * s.nparts / 8)).held = p.held ++ [r] ∧ blk r.bytes 8 1 = Cause.dataLost.code ∧
           blk r.bytes 10 1 = 2 ∧ blk r.bytes 24 8 = a / 128 * 128 ∧
           ((∀ x ∈ s.strands, x.2.ord.path = []) → (∀ c ∈ s.cores, c.2.stores = []) → t.mem = s.mem)))

/-- An access from outside reaches device memory: the part answers the host from the stage DIES on and a peer at READY, the link of the peer
has not failed, and none of the bytes it reads or writes at its own address lies in a lost line (16 R294, 24 R338, 27 R359 R364). -/
structure Sys2Proof.Claim.Reaches (s : State) (r : RemoteReq) : Prop where
  here : r.hostMemory = false ∧ r.addr + remoteSize r.op ≤ Config.deviceBytes
  up : s.stage = .ready ∨ s.stage = .dies ∧ r.peer = none
  link : ∀ q, r.peer = some q → q < 256 ∧ r.addr / 2 ^ 36 % 8 * s.nparts / 8 * 256 + q ∉ s.failedPeers
  kept : s.lost r.addr (remoteBytes r.op) = false

/-- R68 R286 R294 R338 R342: an untracked copy may leave an L1, any line be evicted, and a gateway copy leave its slice, with no byte of memory
changed (an evicted line's dirty bytes stand in memory already: the model's choice, log entry 4); a peer's invalidation takes every
copy of its page, which the model keys by peer and address (log entry 21), the decided cells of dies among them; the mark of a failed
link is cleared for one peer; before the link is up an access has no effect; a read, a write and an AMOADD from outside act at the
home, a write on the bytes it names; an append puts whole words of 8 bytes at TAIL, with zeros after its data, and a proposal that
carries the page's generation decides its cell, and an OCLEAR, of a page that nobody holds and with nothing on the way, leaves every cell of
it undecided and its generation one higher, as 07 R106, R116 and R120 say (that the clear runs as one of the part's own: log entry 24). -/
def Obligations.CopiesLeaveAndOutsideAccessesAct : Prop :=
  (∀ (s : State) (c l : Nat) (x : CacheLine), Map.get? (s.core c).l1 l = some x →
    (let out := s.setCore c { s.core c with l1 := Map.erase (s.core c).l1 l }
     (x.own = false → exec (.untrackedCopyDrop c l) s = .next out) ∧ exec (.lineEviction c l) s = .next out)) ∧
  (∀ (s : State) (d l : Nat) (x : Die), Map.get? s.dies d = some x →
    exec (.gatewayCopyDrop d l) s = .next { s with dies := Map.set s.dies d { x with gate := Map.erase x.gate l } }) ∧
  (∀ (s : State) (q n : Nat), ∃ t, exec (.peerInvalidation q n) s = .next t ∧ t.mem = s.mem ∧
    (∀ d, (∀ l ∈ (t.die d).replicas, l / 512 ≠ (Config.peerBase + q * Config.deviceBytes) / 65536 + n) ∧
      ∀ k x, Map.get? (t.die d).cells k = some x → k / 4096 ≠ (Config.peerBase + q * Config.deviceBytes) / 65536 + n) ∧
    ∀ (c l : Nat) (x : CacheLine),
      (let stays := x.own = true ∨ l / 512 ≠ (Config.peerBase + q * Config.deviceBytes) / 65536 + n
       (Map.get? (t.core c).l1 l = some x → stays) ∧ (Map.get? (t.core c).icache l = some x → stays) ∧ (Map.get? (t.die c).gate l = some x → stays) ∧
       (Map.get? (s.core c).l1 l = some x → stays → Map.get? (t.core c).l1 l = some x) ∧
       (Map.get? (s.die c).gate l = some x → stays → Map.get? (t.die c).gate l = some x))) ∧
  (∀ (s : State) (q : Nat), ∃ t, exec (.linkFailedMarkClear q) s = .next t ∧
    (∀ m, m ∈ t.failedPeers ↔ m ∈ s.failedPeers ∧ m % 256 ≠ q) ∧ t = { s with failedPeers := t.failedPeers }) ∧
  (∀ (s : State) (r : RemoteReq), r.hostMemory = false → s.stage ≠ .ready → s.stage ≠ .dies ∨ r.peer ≠ none →
    exec (.remoteAccess r) s = .next s) ∧
  (∀ (s : State) (r : RemoteReq), Map.get? s.apps (r.addr / 65536) = none → Map.get? s.onces (r.addr / 65536) = none →
    (∀ n, r.op = .read n → Reaches s r → ∃ t, exec (.remoteAccess r) s = .next t ∧ t.mem = s.mem) ∧
    (∀ d, r.op = .write d → Reaches s r → ∃ t, exec (.remoteAccess r) s = .next t ∧ t.others = s.others ∧ t.me = s.me ∧
      ∀ a, t.mem.byte a = if r.addr ≤ a ∧ a < r.addr + d.length then (d[a - r.addr]?).getD 0 else s.mem.byte a) ∧
    ∀ x y, r.op = .amo .add x y → Reaches s r → ∃ t, exec (.remoteAccess r) s = .next t ∧
      natOfBytes (t.mem.read r.addr 8) = (natOfBytes (s.mem.read r.addr 8) + x.toNat) % 2 ^ 64 ∧
      ∀ a, a < r.addr ∨ r.addr + 8 ≤ a → t.mem.byte a = s.mem.byte a) ∧
  (∀ (s : State) (r : RemoteReq) (p : AppPage) (d : List Byte), r.op = .append d → Reaches s r →
    Map.get? s.apps (r.addr / 65536) = some p → p.state = .open_ → p.engineHeld = false → 8 ∣ p.tail →
    (let n := (d.length + 7) / 8 * 8
     let at_ := r.addr / 65536 * 65536 + p.tail
     (p.tail + n ≤ 65536 → s.lost at_ n = false → ∃ t, exec (.remoteAccess r) s = .next t ∧ (t.app (r.addr / 65536)).tail = p.tail + n ∧
       ∀ a, t.mem.byte a = if at_ ≤ a ∧ a < at_ + n then (d[a - at_]?).getD 0 else s.mem.byte a) ∧
     (65536 < p.tail + n → exec (.remoteAccess r) s = .next s))) ∧
  (∀ (s : State) (r : RemoteReq) (o : OncePage) (g : Nat) (x : Word), r.op = .propose g x → Reaches s r →
    Map.get? s.apps (r.addr / 65536) = none → Map.get? s.onces (r.addr / 65536) = some o → o.clearing = false →
    (g = o.gen → ∃ t, exec (.remoteAccess r) s = .next t ∧ t.mem = s.mem ∧
      cellAt t (r.addr / 65536) (r.addr % 65536 / 16) = some ((cellAt s (r.addr / 65536) (r.addr % 65536 / 16)).getD x)) ∧
    (g ≠ o.gen → exec (.remoteAccess r) s = .next s)) ∧
  ∀ (s : State) (r : RemoteReq) (o : OncePage), r.op = .oclear → Reaches s r → s.later = false → s.shoots = [] →
    (∀ p ∈ s.strands, p.2.ord.path = []) → (∀ c ∈ s.cores, c.2.chunks = [] ∧ c.2.stores = []) →
    (let f := r.addr / 65536
     Map.get? s.apps f = none → Map.get? s.onces f = some o → o.clearing = false → (Map.get? s.peerHolds f).getD [] = [] →
     ∃ t, exec (.remoteAccess r) s = .next t ∧ (t.once f).gen = (o.gen + 1) % 2 ^ 32 ∧ (∀ i, cellAt t f i = none) ∧
       (t.once f).clearing = false ∧ (∀ g, g ≠ f → t.once g = s.once g) ∧ t.shoots = [] ∧ t.mem = s.mem)

/-! The steps without a word: the dispatch units (23_scheduling). -/

/-- A queue that does not run, or whose descriptor is well formed and counts at most as many records as slots, also where BASE = 0 says that no
slot is read (23 R319 R320). -/
def Sys2Proof.Claim.Orderly (d : QueueDesc) : Prop := d.state ≠ 1 ∨ d.malformed = false ∧ d.filled ≤ d.size

/-- R319 R320 R322 R323: a write of WIDX or of STATE lands in the descriptor, and a descriptor out of order stops its queue; the record at
RIDX of a running queue becomes its head once it passes its checks; before the link is up neither write reaches the part. A head whose
task has not started, with no counters to wait for, is eligible from its START, and stays so when it is evaluated again; that it is
eligible from the moment of its evaluation, when that came later, is the model's reading of R323 (log entry 37). -/
def Obligations.QueuesAreRead : Prop :=
  ∀ (s : State) (p q : Nat), p < s.nparts → q < 64 →
    (∀ v, (let u := physWrite s (descAddr s p q + 16) (bytesOfNat 4 (v % 2 ^ 32))
           let d := descOf u p q
           (s.stage ≠ .ready → s.stage ≠ .dies → exec (.widxWrite p q v) s = .next s ∧ exec (.queueStateWrite p q v) s = .next s) ∧
           (s.stage = .dies ∨ s.stage = .ready ∧ Orderly d → exec (.widxWrite p q v) s = .next u) ∧
           (s.stage = .ready → ¬ Orderly d → exec (.widxWrite p q v) s = .next (stopQueue u p q d.ridx { cause := .queueRecord })))) ∧
    (∀ v, (let u := physWrite s (descAddr s p q + 12) [BitVec.ofNat 8 v]
           (v % 256 = 1 → s.stage = .dies ∨ s.stage = .ready ∧ Orderly (descOf u p q) → exec (.queueStateWrite p q v) s = .next u) ∧
           (v % 256 ≠ 1 → s.stage = .dies ∨ s.stage = .ready → (s.part p).serving = none → ∃ t, exec (.queueStateWrite p q v) s = .next t ∧ t.mem = u.mem ∧
             (t.queueInfo p q).head = none ∧ (t.queueInfo p q).release = none))) ∧
    (s.stage = .ready → (s.queueInfo p q).head = none → (descOf s p q).state = 1 →
      (let d := descOf s p q
       let ag := hwAgent p (p * 32 / s.nparts / 8)
       (¬ Orderly d → exec (.taskHeadCheck p q) s = .next (stopQueue s p q d.ridx { cause := .queueRecord })) ∧
       (d.base ≠ 0 → Orderly d → d.filled ≠ 0 → ∀ l, check (touch s ag (d.slot d.ridx)) ag .hwRead (d.slot d.ridx) 128 128 = .ok l →
         (let b := s.mem.read l.loc.pa 128
          recordBad b = false → (taskOf b).ngang < 2 ^ 24 →
          ∃ t, exec (.taskHeadCheck p q) s = .next t ∧ t.mem = s.mem ∧ (t.queueInfo p q).head = some (taskOf b) ∧
            (t.queueInfo p q).index = d.ridx ∧ (t.queueInfo p q).since = s.now ∧ (t.queueInfo p q).release = none)))) ∧
    ∀ x, (s.queueInfo p q).head = some x → headServed s p q = false → s.stage = .ready → x.deps = [] → x.flags % 2 = 0 →
      x.start ≤ s.now → ∀ i ∈ [Instr.dependenceEvaluation p q, .startTimeReached p q],
        exec i s = .next (s.setQueueInfo p q { s.queueInfo p q with
          depsMet := true
          release := some ((s.queueInfo p q).release.getD
            (if (s.queueInfo p q).depsMet = true ∨ (s.queueInfo p q).since ≤ x.start then x.start else s.now)) })

/-- The gang of a launch that comes next finds its cluster and its pages (23 R326). -/
structure Sys2Proof.Claim.FindsPlace (u : State) (p lk : Nat) (l : Launch) (c : Nat) (cids : List Nat) : Prop where
  serving : (u.part p).serving = some lk ∧ Map.get? u.launches lk = some l
  none_waits : preemptedOf u (fun g => g.launch == lk) = []
  left : l.done = false ∧ l.placed < l.task.ngang
  cluster : findCluster u l.part l.lastCluster l.task = some (c, cids)
  pages : (takeBacking u l.part (freshKey u.gangs) l.task).isSome

/-- R324 R325 R326 R327 R329: the eligible head that no other precedes is taken, until a gang of the served task is placed, and a
task without gangs completes at once; the next gang of the served task, chosen again where none of its gangs is placed, is placed on
the cluster and cores that take it; a gang whose floors are awake and whose time has come starts, and its strands become ready; a
launch all of whose gangs have ended is over: its counter has its increment, and its interrupt is sent, after a fault of the counter
only once the fault's record is written (16 R296). That the choice stays open until gang 0 is placed, that the places of an ended
gang are freed before a placement, once nothing of it is on the way, and that a task without gangs completes in its selection, are
the model's readings (log entries 69, 53 and 54). -/
def Obligations.TasksRun : Prop :=
  (∀ (s : State) (p : Nat), s.stage = .ready → p < s.nparts →
    (∀ lk l, (s.part p).serving = some lk → Map.get? s.launches lk = some l → l.placed = 0) → eligibleHeads s p ≠ [] →
    ∃ h ∈ eligibleHeads s p, (∀ g ∈ eligibleHeads s p, better s g h = false) ∧
      (let k := freshKey (dropUnstarted s p).launches
       ∃ t, exec (.taskSelection p) s = .next t ∧
        (h.2.2.ngang ≠ 0 → t.mem = s.mem ∧ (t.part p).serving = some k ∧ Map.get? t.launches k = some
            { part := p, queue := h.1, index := h.2.1.index, task := h.2.2, lstart := h.2.1.release.getD 0, byEnq := h.2.1.byEnq, sig := h.2.1.sig }) ∧
        (h.2.2.ngang = 0 → Map.get? t.launches k = none))) ∧
  (∀ (s : State) (p lk : Nat) (l : Launch), (s.part p).serving = some lk → Map.get? s.launches lk = some l → l.placed ≠ 0 →
    exec (.taskSelection p) s = .next s) ∧
  (∀ (s : State) (p lk c : Nat) (l : Launch) (cids : List Nat), s.stage = .ready → p < s.nparts →
    FindsPlace (chooseAgain (reapGangs s) p) p lk l c cids →
    (let g := freshKey (chooseAgain (reapGangs s) p).gangs
     ∃ t x, exec (.gangPlacement p) s = .next t ∧ t.gang? g = some x ∧ x.gid = l.placed ∧ x.launch = lk ∧ x.cluster = c ∧ x.cids = cids ∧
       x.state = .placed ∧ x.keys.length = l.task.nstr ∧ ∃ m, Map.get? t.launches lk = some m ∧ m.placed = l.placed + 1)) ∧
  (∀ (s : State) (g : Nat) (x : Gang), s.gang? g = some x → x.state = .placed → residentOf s g ≠ [] →
    (∀ k ∈ residentOf s g, k.2.status ≠ .stopped ∧ (x.task.start = 0 ∨ 2 * k.2.id.lstart + 125 * x.cluster ≤ 2 * s.now) ∧
      ∀ y ∈ (s.core (k.1 / 4)).groups, y.owner = some (k.1 % 4) → y.asleep = false) →
    ∃ t, exec (.gangStart g) s = .next t ∧ t.mem = s.mem ∧ t.gang? g = some { x with state := .running } ∧
      ∀ k y, s.strand? k = some y → y.fliven = false → y.id.gang = g → y.status = .placed →
        t.strand? k = some { y with status := .ready }) ∧
  ∀ (s : State) (lk : Nat) (l : Launch), Map.get? s.launches lk = some l → l.done = true ∨ l.placed = l.task.ngang →
    l.ended = l.placed →
    (let u := (s.strands.filterMap fun p => if !p.2.fliven && p.2.id.launch == lk then some p.1 else none).foldl drainStrand s
     let ag := hwAgent l.part (l.part * 32 / s.nparts / 8)
     let at_ := check (touch u ag l.task.ccnt) ag .hwWrite l.task.ccnt 8 8
     let message := if l.task.flags / 2 % 2 = 1 then [(l.part, l.task.msixv)] else []
     ∃ t, exec (.launchCompletion lk) s = .next t ∧ t.launches = Map.erase s.launches lk ∧
       ((s.part l.part).held = [] → l.task.ccnt = 0 ∨ (∃ c, at_ = .ok c) → t.msix = s.msix ++ message) ∧
       ((s.part l.part).held = [] → (s.part l.part).frqsize ≤ ((s.part l.part).frqtail + 2 ^ 32 - (s.part l.part).frqhead) % 2 ^ 32 →
         l.task.ccnt ≠ 0 → (∃ f, at_ = .error f) → t.msix = s.msix) ∧
       ((∀ q, (s.queueInfo l.part q).head = none) → l.task.ccnt ≠ 0 → ∀ c, at_ = .ok c →
         natOfBytes (t.mem.read c.loc.pa 8) = (natOfBytes (u.mem.read c.loc.pa 8) + l.task.cinc.toNat) % 2 ^ 64 ∧
         ∀ a, a < c.loc.pa ∨ c.loc.pa + 8 ≤ a → t.mem.byte a = u.mem.byte a))

/-- R207 R346 R347: a VADD that has issued k of its elements when its strand is stopped is brought to the next multiple of the elements of one
cycle: the governed elements below it are written, VSTART holds it, and the tag, the queue, the flags and memory stay. That the destination
keeps its tag till the entry completes, that a mark says how many elements were issued, and that the elements of a cycle are counted over
all positions, governed or not, are the model's readings (log entry 20). -/
def Sys2Proof.Claim.EntriesStopInside : Prop :=
  ∀ (m : MReg) (d a b : VReg) (s : State) (e : Entry) (q : List QItem) (k : Nat),
    s.me.queue = .entry e :: q → e.instr = .vadd m d a (.v b) → e.upTo = some k → groupsAsleep s e.whole = false →
    s.me.v.vstart = 0 → (∀ x ∈ s.me.v.streams.toList, x.bound = false) →
    (let r := fun v : VReg => s.slot (e.wb + v.toNat)
     let w := (r a).tag.width
     let n := roundUp k (16 * e.lg * (32 / w))
     let t := stopInside s
     (r a).tag ∈ intTags → (r b).tag = (r a).tag → e.vl * w ≤ e.lg * 2048 → 0 < n → n < e.vl →
     t.me.v.vstart = n ∧ t.me.queue = s.me.queue ∧ t.me.fcsr = s.me.fcsr ∧ t.mem = s.mem ∧
       (t.slot (e.wb + d.toNat)).tag = (r d).tag ∧
       (∀ i, (i + 1) * w ≤ 32768 → (t.slot (e.wb + d.toNat)).elem w i =
         if i < n ∧ maskBit s m i = true then ((r a).elem w i + (r b).elem w i) % 2 ^ w else (r d).elem w i) ∧
       ∀ j, j ≠ e.wb + d.toNat → t.slot j = s.slot j)

/-- R346: an entry is stopped inside, by the readings of log entry 20. R307 R310 R328: a rotation that is due stops the gang that has slept
longest, unless something holds the stop off; without room for its context the launch ends for STALL-CAPACITY; a stop held off
proceeds once nothing holds it off any more; the oldest record that waits is written when its slot is free, which wakes the Fliven
strands of the partition from WAITUNTIL. That a rotation first stops its gang and then places the next one is the model's reading (log
entry 38). -/
def Obligations.StopsAndRecordsProceed : Prop :=
  EntriesStopInside ∧
  (∀ (s : State) (lk g : Nat) (l : Launch) (x : Gang), Map.get? s.launches lk = some l → rotationDue s lk l = true →
    longestAsleep s (s.gangs.filter fun p => p.2.launch == lk && p.2.isResident) = some (g, x) →
    stopHeld s g ((x.stopReq.map Prod.fst).getD s.now) = false →
    exec (.stallRotation lk) s = .next (rotate s lk g) ∧
    (contextRoom s g = false → exec (.stallRotation lk) s = .next (endLaunch
      { s with launches := Map.set s.launches lk { l with endCause := some .stallCapacity } } lk)) ∧
    (contextRoom s g = true → (s.part l.part).serving ≠ some lk → s.gangs.map Prod.fst = [g] →
      exec (.stallRotation lk) s = .next (stopGang s g false))) ∧
  (∀ (s : State) (k since : Nat) (y : Strand) (x : Gang) (halt : Bool), s.strand? k = some y → y.fliven = false →
    s.gang? y.id.gang = some x → x.stopReq = some (since, halt) → x.state = .running → stopHeld s y.id.gang since = false →
    exec (.pdDeferralExpiry k) s =
      .next (if halt then stopGang s y.id.gang true else rotate s x.launch y.id.gang)) ∧
  ∀ (s : State) (p : Nat) (r : HeldRec) (l : Loc), (s.part p).held = [r] → frqSlot s p = .ok (some l) → r.bytes.length = 64 →
    ∃ t, exec (.faultRecordRetry p) s = .next t ∧ (t.part p).held = [] ∧ (t.part p).frqtail = ((s.part p).frqtail + 1) % 2 ^ 32 ∧
      (t.part p).frqhead = (s.part p).frqhead ∧ t.others = (s.others.map fun q => (q.1, wokenBy p q.2)) ∧ t.me = wokenBy p s.me ∧
      ∀ a, t.mem.byte a = if l.pa ≤ a ∧ a < l.pa + 64 then (r.bytes[a - l.pa]?).getD 0 else s.mem.byte a

/-! The steps without a word: waits that end, engines and homes. -/

/-- R126 R180 R203 R171: once WTO ns have passed a wait is tested again: ABWAIT and SRWAIT complete though what they wait for has not come, a
watch in the lanes goes on; WAITUNTIL completes once its time is reached; a TCOPY that lacks credits is tried again; a word that
encodes nothing raises ILLEGAL; a trap of a Fliven strand is taken in its core, with a subcode for the causes that have one, and PREEMPT is none
(25 R344). -/
def Obligations.WaitsEndAndTrapsArrive : Prop :=
  (∀ (d a b : SReg) (s : State) (since : Nat), s.me.status = .ready → s.me.wto ≠ 0 → s.me.wait.since = some since →
    since + s.me.wto.toNat ≤ s.now → Free s [d, a, b] →
    (∀ c o, s.me.wait.on_ = some (.abwait a b) → s.me.fliven = false → s.me.ord.path = [] →
      barrierTrap s s.agent (s.rd a) = .ok (c, o) → (barrierIn s (.spad s.me.id.gang c o)).broken = false →
      ∃ t, exec (.waitTimeout s.key) s = .next t ∧ HomeFrame s t 0 0 ∧ ∀ l, byteAt t l = byteAt s l) ∧
    (s.me.wait.on_ = some (.srwait d a b) → NoReleases s → (s.rd a).toNat < 16384 →
      ((s.rd a).toNat + 16384 - (s.part s.me.part).sralloc.toNat % 16384) % 16384 <
        (s.part s.me.part).sralloc.toNat / 2 ^ 16 % 2 ^ 15 →
      (syncAt s (dieOfKey s.key) (s.rd a).toNat).toNat < (s.rd b).toNat →
      exec (.waitTimeout s.key) s = .next (passed (s.wr d (syncAt s (dieOfKey s.key) (s.rd a).toNat)))) ∧
    (s.me.wait.on_ = none → exec (.waitTimeout s.key) s = .next (runQueue s))) ∧
  (∀ (a : SReg) (s : State), s.me.status = .ready → s.me.wait.on_ = some (.waituntil a) → (s.rd a).toNat ≤ s.now →
    exec (.waituntilTimeReached s.key) s = .next (passed s)) ∧
  (∀ (d a b : SReg) (s : State) (e : Entry) (q : List QItem), s.me.status = .ready → s.me.queue = .entry e :: q →
    e.instr = .tcopy d a b → aheadAtUnit s 1 = [] →
    exec (.channelCreditWait s.key) s = .next (if s.later then (servedStep s).1 else runQueue s)) ∧
  (∀ (w : Word32) (s : State), Idle s → exec (.unallocatedEncoding w) s = .next (takeTrap 0 w.toNat { cause := .illegal } s)) ∧
  ∀ (k : Nat) (c : Cause) (sub : Nat) (val : Word) (s : State), s.key = 1024 + k → s.me.fliven = true → s.me.status = .ready →
    s.me.fl.trapped = false → (c = .preempt → exec (.flivenTrap k c sub val) s = .next s) ∧ (c ≠ .preempt →
    exec (.flivenTrap k c sub val) s = .next { s with me := { s.me with
      pc := s.me.fl.tvec, level := .f, wait := {}, owed := []
      fl := { s.me.fl with epc := s.me.pc, elevel := s.me.level.num, faultVal := val, trapped := true
                           ecause := BitVec.ofNat 64 (c.code + if c ∈ [Cause.shape, .stream, .protection] then 256 * (sub % 256) else 0) } } })

/-- No ended gang is kept. -/
def Sys2Proof.Claim.NoneEnded (s : State) : Prop := ∀ p ∈ s.gangs, p.2.state ≠ .ended

/-- R78 R132 R134 R140 R149: a chunk of one element lands at its destination and leaves the engine; a chunk that is lost leaves it too,
marks its channel, and has a record of its loss, which waits while the record queue is full; where the line it reads was lost before,
nothing at all is written (a line lost only now has a record of its own, and what waits for it is performed first); a multicast has one
record for all its destination cores (the model's reading, log entry 59); the oldest tile write on the way gives the tile its contents
(that they land in the order of sending, those of different cores too, is the model's choice, log entry 77); a reduction message applies
its function at the banks, but not before an earlier one of its core; a refill puts the next element of the pattern, or the fault it met,
behind those of its stream slot. -/
def Obligations.CopiesLandAndSlotsRefill : Prop :=
  (∀ (s : State) (c n : Nat) (k : Chunk) (qa g : Nat), (s.core c).chunks[n]? = some k → NoneEnded s → k.lost = false → k.data = [] →
    spanLost s k.src k.ssize k.lo 1 = false → spanLost s k.dst k.dsize k.lo 1 = false → k.n = 1 → k.rop = 0 → k.ctag = .raw →
    k.bar = none → k.dst.at (k.lo * k.dsize) = .gen qa .normal g →
    (let x := blk (readSpan (engineAgent c k.gang) .si k.src k.ssize k.lo 1 s).2 0 k.ssize
     ∃ t, exec (.copyChunkLanding c n) s = .next t ∧ (t.core c).chunks = (s.core c).chunks.eraseIdx n ∧ t.me = s.me ∧
       ∀ a, t.mem.byte a = if qa ≤ a ∧ a < qa + k.dsize then BitVec.ofNat 8 (x / 256 ^ (a - qa)) else s.mem.byte a)) ∧
  (∀ (s : State) (c n : Nat) (k : Chunk), (s.core c).chunks[n]? = some k → k.data = [] →
    ∃ t, exec (.copyChunkLost c n) s = .next t ∧ (t.core c).chunks = (((s.core c).chunks.eraseIdx n).filter fun d =>
        decide (¬ (k.lost = true ∧ d.lost = true ∧ d.order = k.order ∧ d.lo = k.lo))).map (fun d =>
        if d.order = k.order then { d with paid := true } else d) ∧ (Map.getD (t.core c).chans k.chan {}).lost = true ∧
      ∀ g, s.gang? k.gang = some g → NoneEnded s → k.bar = none →
        (let p := s.part g.part
         p.frqsize ≤ (p.frqtail + 2 ^ 32 - p.frqhead) % 2 ^ 32 →
         (∃ l r, (t.part g.part).held = p.held ++ l ++ [r] ∧ blk r.bytes 8 1 = Cause.dataLost.code ∧ blk r.bytes 10 1 = 2) ∧
         ((∀ pa ty h, k.src.at (k.lo * k.ssize) = .gen pa ty h → pa < Config.deviceBytes → pa / 128 ∈ s.lostLines) →
           t.mem = s.mem ∧ t.gangs = s.gangs ∧ (t.part g.part).held.length = p.held.length + 1))) ∧
  (∀ (s : State) (c : Nat) (w : TileWrite) (rest : List TileWrite), (s.core c).tileWrites = w :: rest → NoneEnded s → w.bar = none →
    ∃ t, exec (.tldmTileWrite c) s = .next t ∧ (t.core c).tileWrites = rest ∧ t.mem = s.mem ∧ t.gangs = s.gangs ∧
      Map.get? (t.core c).tiles w.tile = some { bits := w.bits, side := w.side, tag := w.tag, depth := w.depth, written := true } ∧
      ∀ k, k ≠ w.tile → Map.get? (t.core c).tiles k = Map.get? (s.core c).tiles k) ∧
  (∀ (s : State) (c n : Nat) (m : RedMsg) (g : Gang), (s.core c).redMsgs[n]? = some m → NoneEnded s →
    s.gang? m.gang = some g → g.evicted = [] →
    ((∃ r ∈ (s.core c).redMsgs.take n, r.src = m.src) → exec (.reductionMessage c n) s = .next s) ∧
    ((∀ r ∈ (s.core c).redMsgs.take n, r.src ≠ m.src) → ∃ t, exec (.reductionMessage c n) s = .next t ∧ (t.core c).redMsgs = (s.core c).redMsgs.eraseIdx n ∧
      Stored s t (.spad m.gang c m.off) m.size (redApply m.op m.tag (numberAt s (.spad m.gang c m.off) m.size) m.value))) ∧
  ∀ (s : State) (q : Nat), s.me.status = .ready → q < 4 →
    (let x := s.me.v.stream q
     let p := x.pos + x.ahead.length
     let u := touch s s.agent (x.addr p)
     let w := x.tag.width / 8
     x.bound = true → p < x.total → x.ahead.length * w < 8192 →
     (∀ f, check u s.agent .vload (x.addr p) w w = .error f → ∃ t, exec (.streamRefill s.key q) s = .next t ∧
       t = { u with me := { s.me with v := { s.me.v with streams := t.me.v.streams } } } ∧
       t.me.v.stream q = { x with ahead := x.ahead ++ [.held f] }) ∧
     (∀ l, check u s.agent .vload (x.addr p) w w = .ok l → isRemote l.loc.pa = false →
       (∀ k y, Map.get? (s.core s.myCore).l1 k = some y → y.own = false → y.data.length = 128) →
       ∃ t, exec (.streamRefill s.key q) s = .next t ∧ t.mem = s.mem ∧ t.me.regs = s.me.regs ∧ t.me.pc = s.me.pc ∧
         t.me.v.stream q = { x with ahead := x.ahead ++ [.elem (numberSeen s .si l.loc w)] } ∧
         ∀ k, k < 4 → k ≠ q → t.me.v.stream k = s.me.v.stream k))

/-- R83 R89 R90: an engine takes the next record of its oldest arrival behind course 0, and HEAD advances; a merge that may be made puts
the combination of the two oldest items of its course behind the next course, and neither HEAD nor FIRST moves; the oldest item of the
coarsest course expires, whatever the budget of merges, and FIRST advances by its span (that expiries are not counted is the model's
reading, log entry 26). Finer work goes on while a coarser merge waits for a page, which is the model's reading too (log entry 66). An
item has a place where the last page of its course has room or the next entry of the pool record names a free page; that the engine waits
while it names none is the model's choice (log entry 62). -/
def Obligations.CourseEnginesWork : Prop :=
  ∀ (s : State) (key : Nat) (x : Stream), Map.get? s.streams key = some x →
    (∀ (a : Arrival) (r : Nat) (rest : List Nat), x.arrivals = [a] → a.refused = false → a.records = r :: rest → canTake x = true →
      placeable s x 0 = true → 0 < x.levels → a.accepted = true ∨ x.head + a.records.length ≤ 2 ^ 63 →
      ∃ t y, exec (.streamRecordTake key) s = .next t ∧ Map.get? t.streams key = some y ∧ y.head = x.head + 1 ∧ y.first = x.first ∧
        (y.course 0).items = (x.course 0).items ++ [r] ∧ (∀ k, 0 < k → y.course k = x.course k) ∧
        y.arrivals = if rest = [] then [] else [{ a with records := rest, accepted := true }]) ∧
    (∀ (k a b v : Nat) (rest : List Nat), x.freed = [] → x.begun = none → x.work = some k → k + 1 < x.levels → x.withinBudget s.now = true →
      placeable s x (k + 1) = true → (x.course k).items = a :: b :: rest → x.combine a b = .ok v →
      ∃ t y, exec (.courseMerge key) s = .next t ∧ Map.get? t.streams key = some y ∧ y.head = x.head ∧ y.first = x.first ∧
        (y.course k).items = rest ∧ (y.course (k + 1)).items = (x.course (k + 1)).items ++ [v] ∧
        ∀ j, j ≠ k → j ≠ k + 1 → y.course j = x.course j) ∧
    ∀ k, x.begun = none → x.work = some k → k + 1 = x.levels →
      ∃ t y, exec (.courseExpiry key) s = .next t ∧ Map.get? t.streams key = some y ∧ y.head = x.head ∧ y.first = x.first + 2 ^ k ∧
        (y.course k).items = (x.course k).items.drop 1 ∧ ∀ j, j ≠ k → y.course j = x.course j

/-- R80 R106 R338: a fill stores the bytes of its reservation, but not into a line lost since, which is the model's reading (log entry 61), and
the reservation is gone; a die that acknowledges a shoot-down holds no
translation, replica or cached cell of the page, and the last to answer ends it; a peer that acknowledges keeps no copy; one that does not answer is marked failed, with a record of KIND 4
that names it (its CAUSE is a free value, log entry 27); a mirror takes the oldest change on its way. -/
def Obligations.HomesGoOn : Prop :=
  (∀ (s : State) (f n : Nat) (r : Reservation), (s.app f).pending[n]? = some r →
    ∃ t, exec (.appendReservationFill f n) s = .next t ∧ (t.app f).pending = (s.app f).pending.eraseIdx n ∧
      (t.app f).tail = (s.app f).tail ∧ (∀ g, g ≠ f → t.app g = s.app g) ∧
      ∀ a, t.mem.byte a = if f * 65536 + r.off ≤ a ∧ a < f * 65536 + r.off + r.data.length then
        if s.lost (f * 65536 + r.off) r.data.length then s.mem.byte a else (r.data[a - (f * 65536 + r.off)]?).getD 0 else s.mem.byte a) ∧
  (∀ (s : State) (x : Shoot) (h : Nat), s.shoots = [x] → h ∈ x.dies → h < 4 →
    (x.free = true → ∀ p ∈ s.streams, p.2.pa / 65536 ∉ x.frames) →
    (let left := x.dies.filter (· != h)
     ∃ t, exec (.shootdownAck x.vpage h) s = .next t ∧ ¬ Cached t (fun e => x.covers e = true) h ∧
       (∀ f ∈ x.frames, (∀ l ∈ (t.die h).replicas, l / 512 ≠ f) ∧ ∀ i, i < 4096 → Map.get? (t.die h).cells (f * 4096 + i) = none) ∧
       (left ≠ [] ∨ x.peers ≠ [] → t.shoots = [{ x with dies := left }]) ∧ (left = [] → x.peers = [] → t.shoots = []))) ∧
  (∀ (s : State) (x : Shoot) (q : Nat), s.shoots = [x] → q ∈ x.peers →
    (let left := x.peers.filter (· != q)
     (x.dies ≠ [] ∨ left ≠ [] → ∃ t, exec (.shootdownAck x.vpage (4 + q)) s = .next t ∧
       t = { s with shoots := [{ x with peers := left }], peerHolds := t.peerHolds } ∧
       ∀ f ∈ x.frames, q ∉ (Map.get? t.peerHolds f).getD []) ∧
     (x.since + 10000000 ≤ s.now → ∃ t, exec (.peerAckTimeout x.vpage q) s = .next t ∧ x.part * 256 + q ∈ t.failedPeers ∧
       (x.dies ≠ [] ∨ left ≠ [] → t.shoots = [{ x with peers := left }]) ∧
       (x.dies ≠ [] → (s.part x.part).frqsize ≤ ((s.part x.part).frqtail + 2 ^ 32 - (s.part x.part).frqhead) % 2 ^ 32 →
         ∃ r, (t.part x.part).held = (s.part x.part).held ++ [r] ∧ blk r.bytes 10 1 = 4 ∧ blk r.bytes 48 8 = q % 2 ^ 64)))) ∧
  ∀ (s : State) (d n : Nat) (r : SyncReg) (rest : List (Nat × SyncReg)), (s.die d).syncPend = (n, r) :: rest →
    ∃ t, exec (.syncMirrorUpdate d) s = .next t ∧ Map.get? (t.die d).mirror n = some r ∧ (t.die d).syncPend = rest ∧
      (∀ k, k ≠ n → Map.get? (t.die d).mirror k = Map.get? (s.die d).mirror k) ∧ t.syncs = s.syncs ∧ ∀ k, k ≠ d → t.die k = s.die k

/-! Steps, encodings, and what every step keeps. -/

/-- The number that the four bytes of a word at a place form for the strand: in the line that the instruction cache of its core holds, if it
holds one, else as their home holds them (01 R6; log entry 64). -/
def Sys2Proof.Claim.codeNumber (s : State) (l : Loc) : Nat :=
  match if s.me.fliven then none else Map.get? (s.core s.myCore).icache (l.pa / 128) with
  | some x => natOfBytes ((x.data.drop (l.pa % 128)).take 4)
  | none => numberAt s l 4

/-- R14 R171 R180 R197 R330: a step in which a ready strand of a READY part has its turn fetches the word at its PC and is exec of the instruction that
the word decodes to, or of a word that encodes nothing, or, where it waits at a word that it has decoded, of that; around it the strand is
noted as served, its registers and memory as they were, and requests to stop gangs are heeded after it. A strand that keeps the fault of a
word reports it once nothing older is left. That a fetch sees the line its
instruction cache holds, and without one the bytes that memory holds now, that with an empty agenda the current strand decodes, and that a
kept fault is reported as it was found, are the model's choices (log entries 64, 2 and 78). -/
def Obligations.AStepRunsTheDecodedWord : Prop :=
  ∀ (s : State) (b : Bool) (ms : List Move), s.stage = .ready → s.me.status = .ready → s.me.sleepsInLanes = false →
    owedReady s = [] → s.agenda = [] ∧ b = s.later ∧ ms = [] ∨ s.agenda = .decode s.key b :: ms →
    (let v := { s with agenda := ms, later := b }
     let u := touch v s.agent s.me.pc
     (∀ f, s.me.wait.fault = some f → f.chan = none → Idle s → step s = settled (.next (takeTrap 0 f.word f.trap (served v)))) ∧
     (∀ i, s.me.wait.fault = none → s.me.wait.on_ = some i → (served v).me = s.me ∧ (served v).mem = s.mem ∧
       step s = settled (exec i (served v))) ∧
     ∀ l : Place, s.me.wait.fault = none → s.me.wait.on_ = none → check u s.agent .fetch s.me.pc 4 4 = .ok l →
     (let w : Word32 := BitVec.ofNat 32 (codeNumber s l.loc)
      (served u).me = s.me ∧ (served u).mem = s.mem ∧
      (∀ i, decode w = .ok i → step s = settled (exec i (served u))) ∧
      (∀ e, decode w = .error e → step s = settled (exec (.unallocatedEncoding w) (served u)))))

/-- R157 to R166: words of every format decode to the instruction their fields name (the words are written out from the encodings). -/
def Obligations.WordsOfEveryFormatDecode : Prop :=
  decode 0xF8000000 = .ok .nop ∧ decode 0xF8700007 = .ok (.clk 7) ∧ decode 0xF8018008 = .ok (.waituntil 6) ∧
  decode 0xF8012303 = .ok (.trap 0x123) ∧ decode 0xF8004011 = .ok (.window 1) ∧ decode 0xF8310181 = .ok (.mfs 3 0x101) ∧
  decode 0xF8511082 = .ok (.mts 5 0x110) ∧ decode 0x6C010286 = .ok (.vfma 0 4 5 (.v 6)) ∧ decode 0xB8004405 = .ok (.mrow 1 8 5) ∧
  decode 0xF031053B = .ok (.amoadd 3 4 5 .ar .device) ∧ decode 0xC0310500 = .ok (.add 3 4 5) ∧ decode 0xCC212345 = .ok (.lui 2 0x12345) ∧
  decode 0xE8313402 = .ok (.std 3 4 .wt 2) ∧ decode 0xD4415FFC = .ok (.bne 4 5 (-4)) ∧ decode 0xDE000010 = .ok (.call 16)

/-- R156 to R171: decoding the word that the encoding of a well-formed instruction gives answers that instruction, with every operand. -/
def Obligations.EncodedInstructionsDecode : Prop := ∀ i : Instr, i.wf = true → decode (encode i) = .ok i

/-- R156 R171: a word that decodes is the encoding of the instruction it decodes to, which is well-formed: no two words are read as the same
instruction, and no field that must be zero is ignored. -/
def Obligations.DecodedWordsAreEncodings : Prop := ∀ (w : Word32) (i : Instr), decode w = .ok i → i.wf = true ∧ encode i = w

/-- Memory and the scratchpads of every gang are in canonical form: equal contents are equal data. -/
def Sys2Proof.Claim.Canonical (s : State) : Prop :=
  Mem.wf s.mem = true ∧ ∀ g ∈ s.gangs, ∀ p ∈ g.2.spads, Mem.wf p.2 = true

/-- Every step keeps memory and scratchpads in canonical form. -/
def Obligations.StepsKeepMemoryCanonical : Prop :=
  ∀ s t : State, Canonical s → step s = .next t → Canonical t

/-- The machine after reset (27 R356 R359 R366, 22 R308): no stage is entered, one partition, the power limit 3,000 W, nothing resident but the
sixteen Fliven strands, whose registers are zero and whose level is F; memory is in canonical form. That there is one partition and that
the strands stand at address 0 is the model's choice (log entries 8 and 9). -/
def Obligations.ResetLeavesTheGivenValues : Prop :=
  Canonical State.reset ∧ State.reset.stage = .off ∧ State.reset.nparts = 1 ∧ State.reset.powerLimit = 3000 ∧
  State.reset.gangs = [] ∧ State.reset.launches = [] ∧
  ∀ k, k < 16 → ∃ t, State.reset.strand? (1024 + k) = some t ∧ t.fliven = true ∧ t.level = .f ∧ t.fl = {} ∧ t.pc = 0 ∧
    ∀ r : Fin 64, t.regs[r] = 0

end
end

