-- ==== Sys2Proof/Laws/Path.lean ====
section
/-! SUPPORT. Laws of the waiting scalar accesses of a strand (15_order_local R275 R277 R279). -/

namespace Sys2Proof.Machine

/-- A split loses no access and makes none. -/
theorem splitPath_perm (pick : PendAccess → Bool) (need l : List PendAccess) :
    ((splitPath pick need l).1 ++ (splitPath pick need l).2).Perm l := by
  induction l generalizing need with
  | nil => exact .nil
  | cons p rest ih =>
    unfold splitPath
    split
    · exact (ih _).cons p
    · exact List.perm_middle.trans ((ih _).cons p)

/-- What a split leaves is not picked. -/
theorem splitPath_left {pick : PendAccess → Bool} {need l : List PendAccess} {p : PendAccess}
    (h : p ∈ (splitPath pick need l).2) : pick p = false := by
  induction l generalizing need with
  | nil => simp [splitPath] at h
  | cons q rest ih =>
    unfold splitPath at h
    split at h
    · exact ih h
    · next hn =>
      simp only [List.mem_cons] at h
      rcases h with rfl | h
      · simp_all
      · exact ih h

/-- A split that picks none leaves all. -/
theorem splitPath_none {pick : PendAccess → Bool} {l : List PendAccess} (h : ∀ p ∈ l, pick p = false) :
    splitPath pick [] l = ([], l) := by
  induction l with
  | nil => rfl
  | cons p rest ih =>
    simp [splitPath, h p (by simp), ih fun q hq => h q (by simp [hq])]

/-- Where no access is picked, none is performed. -/
theorem drainPicked_none {pick : PendAccess → Bool} {s : State} (h : ∀ p ∈ s.me.ord.path, pick p = false) : drainPicked pick s = s := by
  simp [drainPicked, splitPath_none (l := s.me.ord.path.reverse) fun p hp => h p (by simpa using hp)]

theorem drainPicked_nil {s : State} (hp : s.me.ord.path = []) (pick : PendAccess → Bool) : drainPicked pick s = s :=
  drainPicked_none (by simp [hp])

theorem drainLoads_nil {s : State} (hp : s.me.ord.path = []) : drainLoads s = s := drainPicked_nil hp _

theorem drainPath_nil {s : State} (hp : s.me.ord.path = []) : drainPath s = s := by simp [drainPath, hp]

theorem drainBefore_nil {s : State} (hp : s.me.ord.path = []) (l : Loc) (n : Nat) : drainBefore s l n = s := drainPicked_nil hp _

/-- With no access waiting, a scalar write comes at once, whether it is a release or not. -/
theorem beforeWrite_nil {s : State} (hp : s.me.ord.path = []) (own : Bool) (l : Loc) (n : Nat) : beforeWrite s own l n = s := by
  unfold beforeWrite
  split
  · exact drainPath_nil hp
  · exact drainPicked_nil hp _

/-- Without a release fence among the waiting accesses none is performed for one. -/
theorem drainFenced_none {s : State} (h : ∀ p ∈ s.me.ord.path, p.fences = 0) : drainFenced s = s :=
  drainPicked_none fun p hp => by simp [h p hp]

/-- A fence that has met its write, or never came, leaves the strand as it is. -/
theorem endFence_none {s : State} (h : s.me.ord.relFence = none) : endFence s = s := by simp [endFence, h]

/-- A release of its own is performed after every earlier access, whichever it is. -/
@[simp] theorem PendAccess.follows_own {p : PendAccess} (h : p.own = true) (q : PendAccess) : p.follows q = true := by
  simp [PendAccess.follows, h]

/-- A scalar write is performed after every access that a release fence lies between (13 R243, 16 R291). -/
theorem PendAccess.follows_fence {p q : PendAccess} (hw : p.writes = true) (h : p.fences < q.fences) : p.follows q = true := by
  simp [PendAccess.follows, hw, h]

/-- A synchronising operation performs nothing where no release waits. -/
theorem drainReleases_none {s : State} (h : ∀ p ∈ s.me.ord.path, p.rel = none) : drainReleases s = s :=
  drainPicked_none fun p hp => by simp [h p hp]

/-- A step that leaves no work pending lets no access wait. -/
theorem mayWait_now {s : State} (h : s.later = false) (l : Loc) : mayWait s l = false := by simp [mayWait, h]

end Sys2Proof.Machine
end

