-- ==== Sys2Proof/Laws/State.lean ====
section
/-! SUPPORT. Laws of the state record: what each field is after each update, the tables by key, and what a register reads as
after a write. -/

namespace Sys2Proof.Machine

/-! The strand whose turn it is changes. -/

@[simp] theorem State.modMe_me (s : State) (f : Strand → Strand) : (s.modMe f).me = f s.me := rfl
@[simp] theorem State.modMe_key (s : State) (f : Strand → Strand) : (s.modMe f).key = s.key := rfl
@[simp] theorem State.modMe_others (s : State) (f : Strand → Strand) : (s.modMe f).others = s.others := rfl
@[simp] theorem State.modMe_cores (s : State) (f : Strand → Strand) : (s.modMe f).cores = s.cores := rfl
@[simp] theorem State.modMe_dies (s : State) (f : Strand → Strand) : (s.modMe f).dies = s.dies := rfl
@[simp] theorem State.modMe_parts (s : State) (f : Strand → Strand) : (s.modMe f).parts = s.parts := rfl
@[simp] theorem State.modMe_launches (s : State) (f : Strand → Strand) : (s.modMe f).launches = s.launches := rfl
@[simp] theorem State.modMe_gangs (s : State) (f : Strand → Strand) : (s.modMe f).gangs = s.gangs := rfl
@[simp] theorem State.modMe_apps (s : State) (f : Strand → Strand) : (s.modMe f).apps = s.apps := rfl
@[simp] theorem State.modMe_onces (s : State) (f : Strand → Strand) : (s.modMe f).onces = s.onces := rfl
@[simp] theorem State.modMe_shoots (s : State) (f : Strand → Strand) : (s.modMe f).shoots = s.shoots := rfl
@[simp] theorem State.modMe_failedPeers (s : State) (f : Strand → Strand) : (s.modMe f).failedPeers = s.failedPeers := rfl
@[simp] theorem State.modMe_peerHolds (s : State) (f : Strand → Strand) : (s.modMe f).peerHolds = s.peerHolds := rfl
@[simp] theorem State.modMe_streams (s : State) (f : Strand → Strand) : (s.modMe f).streams = s.streams := rfl
@[simp] theorem State.modMe_syncs (s : State) (f : Strand → Strand) : (s.modMe f).syncs = s.syncs := rfl
@[simp] theorem State.modMe_lineSig (s : State) (f : Strand → Strand) : (s.modMe f).lineSig = s.lineSig := rfl
@[simp] theorem State.modMe_mem (s : State) (f : Strand → Strand) : (s.modMe f).mem = s.mem := rfl
@[simp] theorem State.modMe_lostLines (s : State) (f : Strand → Strand) : (s.modMe f).lostLines = s.lostLines := rfl
@[simp] theorem State.modMe_retiredFrames (s : State) (f : Strand → Strand) : (s.modMe f).retiredFrames = s.retiredFrames := rfl
@[simp] theorem State.modMe_gone (s : State) (f : Strand → Strand) : (s.modMe f).gone = s.gone := rfl
@[simp] theorem State.modMe_kept (s : State) (f : Strand → Strand) : (s.modMe f).kept = s.kept := rfl
@[simp] theorem State.modMe_l2Errors (s : State) (f : Strand → Strand) : (s.modMe f).l2Errors = s.l2Errors := rfl
@[simp] theorem State.modMe_rowErrors (s : State) (f : Strand → Strand) : (s.modMe f).rowErrors = s.rowErrors := rfl
@[simp] theorem State.modMe_stage (s : State) (f : Strand → Strand) : (s.modMe f).stage = s.stage := rfl
@[simp] theorem State.modMe_fwEntry (s : State) (f : Strand → Strand) : (s.modMe f).fwEntry = s.fwEntry := rfl
@[simp] theorem State.modMe_now (s : State) (f : Strand → Strand) : (s.modMe f).now = s.now := rfl
@[simp] theorem State.modMe_timeOffset (s : State) (f : Strand → Strand) : (s.modMe f).timeOffset = s.timeOffset := rfl
@[simp] theorem State.modMe_nparts (s : State) (f : Strand → Strand) : (s.modMe f).nparts = s.nparts := rfl
@[simp] theorem State.modMe_powerLimit (s : State) (f : Strand → Strand) : (s.modMe f).powerLimit = s.powerLimit := rfl
@[simp] theorem State.modMe_attested (s : State) (f : Strand → Strand) : (s.modMe f).attested = s.attested := rfl
@[simp] theorem State.modMe_reports (s : State) (f : Strand → Strand) : (s.modMe f).reports = s.reports := rfl
@[simp] theorem State.modMe_reportPending (s : State) (f : Strand → Strand) : (s.modMe f).reportPending = s.reportPending := rfl
@[simp] theorem State.modMe_msix (s : State) (f : Strand → Strand) : (s.modMe f).msix = s.msix := rfl
@[simp] theorem State.modMe_mgmtLog (s : State) (f : Strand → Strand) : (s.modMe f).mgmtLog = s.mgmtLog := rfl
@[simp] theorem State.modMe_drawn (s : State) (f : Strand → Strand) : (s.modMe f).drawn = s.drawn := rfl
@[simp] theorem State.modMe_agenda (s : State) (f : Strand → Strand) : (s.modMe f).agenda = s.agenda := rfl
@[simp] theorem State.modMe_later (s : State) (f : Strand → Strand) : (s.modMe f).later = s.later := rfl

/-! A register is written. -/

@[simp] theorem State.wr_me (s : State) (r : SReg) (x : Word) : (s.wr r x).me = s.me.wr r x := rfl
@[simp] theorem State.wr_key (s : State) (r : SReg) (x : Word) : (s.wr r x).key = s.key := rfl
@[simp] theorem State.wr_others (s : State) (r : SReg) (x : Word) : (s.wr r x).others = s.others := rfl
@[simp] theorem State.wr_cores (s : State) (r : SReg) (x : Word) : (s.wr r x).cores = s.cores := rfl
@[simp] theorem State.wr_dies (s : State) (r : SReg) (x : Word) : (s.wr r x).dies = s.dies := rfl
@[simp] theorem State.wr_parts (s : State) (r : SReg) (x : Word) : (s.wr r x).parts = s.parts := rfl
@[simp] theorem State.wr_launches (s : State) (r : SReg) (x : Word) : (s.wr r x).launches = s.launches := rfl
@[simp] theorem State.wr_gangs (s : State) (r : SReg) (x : Word) : (s.wr r x).gangs = s.gangs := rfl
@[simp] theorem State.wr_apps (s : State) (r : SReg) (x : Word) : (s.wr r x).apps = s.apps := rfl
@[simp] theorem State.wr_onces (s : State) (r : SReg) (x : Word) : (s.wr r x).onces = s.onces := rfl
@[simp] theorem State.wr_shoots (s : State) (r : SReg) (x : Word) : (s.wr r x).shoots = s.shoots := rfl
@[simp] theorem State.wr_failedPeers (s : State) (r : SReg) (x : Word) : (s.wr r x).failedPeers = s.failedPeers := rfl
@[simp] theorem State.wr_peerHolds (s : State) (r : SReg) (x : Word) : (s.wr r x).peerHolds = s.peerHolds := rfl
@[simp] theorem State.wr_streams (s : State) (r : SReg) (x : Word) : (s.wr r x).streams = s.streams := rfl
@[simp] theorem State.wr_syncs (s : State) (r : SReg) (x : Word) : (s.wr r x).syncs = s.syncs := rfl
@[simp] theorem State.wr_lineSig (s : State) (r : SReg) (x : Word) : (s.wr r x).lineSig = s.lineSig := rfl
@[simp] theorem State.wr_mem (s : State) (r : SReg) (x : Word) : (s.wr r x).mem = s.mem := rfl
@[simp] theorem State.wr_lostLines (s : State) (r : SReg) (x : Word) : (s.wr r x).lostLines = s.lostLines := rfl
@[simp] theorem State.wr_retiredFrames (s : State) (r : SReg) (x : Word) : (s.wr r x).retiredFrames = s.retiredFrames := rfl
@[simp] theorem State.wr_gone (s : State) (r : SReg) (x : Word) : (s.wr r x).gone = s.gone := rfl
@[simp] theorem State.wr_kept (s : State) (r : SReg) (x : Word) : (s.wr r x).kept = s.kept := rfl
@[simp] theorem State.wr_l2Errors (s : State) (r : SReg) (x : Word) : (s.wr r x).l2Errors = s.l2Errors := rfl
@[simp] theorem State.wr_rowErrors (s : State) (r : SReg) (x : Word) : (s.wr r x).rowErrors = s.rowErrors := rfl
@[simp] theorem State.wr_stage (s : State) (r : SReg) (x : Word) : (s.wr r x).stage = s.stage := rfl
@[simp] theorem State.wr_fwEntry (s : State) (r : SReg) (x : Word) : (s.wr r x).fwEntry = s.fwEntry := rfl
@[simp] theorem State.wr_now (s : State) (r : SReg) (x : Word) : (s.wr r x).now = s.now := rfl
@[simp] theorem State.wr_timeOffset (s : State) (r : SReg) (x : Word) : (s.wr r x).timeOffset = s.timeOffset := rfl
@[simp] theorem State.wr_nparts (s : State) (r : SReg) (x : Word) : (s.wr r x).nparts = s.nparts := rfl
@[simp] theorem State.wr_powerLimit (s : State) (r : SReg) (x : Word) : (s.wr r x).powerLimit = s.powerLimit := rfl
@[simp] theorem State.wr_attested (s : State) (r : SReg) (x : Word) : (s.wr r x).attested = s.attested := rfl
@[simp] theorem State.wr_reports (s : State) (r : SReg) (x : Word) : (s.wr r x).reports = s.reports := rfl
@[simp] theorem State.wr_reportPending (s : State) (r : SReg) (x : Word) : (s.wr r x).reportPending = s.reportPending := rfl
@[simp] theorem State.wr_msix (s : State) (r : SReg) (x : Word) : (s.wr r x).msix = s.msix := rfl
@[simp] theorem State.wr_mgmtLog (s : State) (r : SReg) (x : Word) : (s.wr r x).mgmtLog = s.mgmtLog := rfl
@[simp] theorem State.wr_drawn (s : State) (r : SReg) (x : Word) : (s.wr r x).drawn = s.drawn := rfl
@[simp] theorem State.wr_agenda (s : State) (r : SReg) (x : Word) : (s.wr r x).agenda = s.agenda := rfl
@[simp] theorem State.wr_later (s : State) (r : SReg) (x : Word) : (s.wr r x).later = s.later := rfl

/-! Execution goes on at an address. -/

@[simp] theorem State.goto_me (s : State) (pc : Word) : (s.goto pc).me = { s.me with pc := pc, wait := {}, owed := [] } := rfl
@[simp] theorem State.goto_key (s : State) (pc : Word) : (s.goto pc).key = s.key := rfl
@[simp] theorem State.goto_others (s : State) (pc : Word) : (s.goto pc).others = s.others := rfl
@[simp] theorem State.goto_cores (s : State) (pc : Word) : (s.goto pc).cores = s.cores := rfl
@[simp] theorem State.goto_dies (s : State) (pc : Word) : (s.goto pc).dies = s.dies := rfl
@[simp] theorem State.goto_parts (s : State) (pc : Word) : (s.goto pc).parts = s.parts := rfl
@[simp] theorem State.goto_launches (s : State) (pc : Word) : (s.goto pc).launches = s.launches := rfl
@[simp] theorem State.goto_gangs (s : State) (pc : Word) : (s.goto pc).gangs = s.gangs := rfl
@[simp] theorem State.goto_apps (s : State) (pc : Word) : (s.goto pc).apps = s.apps := rfl
@[simp] theorem State.goto_onces (s : State) (pc : Word) : (s.goto pc).onces = s.onces := rfl
@[simp] theorem State.goto_shoots (s : State) (pc : Word) : (s.goto pc).shoots = s.shoots := rfl
@[simp] theorem State.goto_failedPeers (s : State) (pc : Word) : (s.goto pc).failedPeers = s.failedPeers := rfl
@[simp] theorem State.goto_peerHolds (s : State) (pc : Word) : (s.goto pc).peerHolds = s.peerHolds := rfl
@[simp] theorem State.goto_streams (s : State) (pc : Word) : (s.goto pc).streams = s.streams := rfl
@[simp] theorem State.goto_syncs (s : State) (pc : Word) : (s.goto pc).syncs = s.syncs := rfl
@[simp] theorem State.goto_lineSig (s : State) (pc : Word) : (s.goto pc).lineSig = s.lineSig := rfl
@[simp] theorem State.goto_mem (s : State) (pc : Word) : (s.goto pc).mem = s.mem := rfl
@[simp] theorem State.goto_lostLines (s : State) (pc : Word) : (s.goto pc).lostLines = s.lostLines := rfl
@[simp] theorem State.goto_retiredFrames (s : State) (pc : Word) : (s.goto pc).retiredFrames = s.retiredFrames := rfl
@[simp] theorem State.goto_gone (s : State) (pc : Word) : (s.goto pc).gone = s.gone := rfl
@[simp] theorem State.goto_kept (s : State) (pc : Word) : (s.goto pc).kept = s.kept := rfl
@[simp] theorem State.goto_l2Errors (s : State) (pc : Word) : (s.goto pc).l2Errors = s.l2Errors := rfl
@[simp] theorem State.goto_rowErrors (s : State) (pc : Word) : (s.goto pc).rowErrors = s.rowErrors := rfl
@[simp] theorem State.goto_stage (s : State) (pc : Word) : (s.goto pc).stage = s.stage := rfl
@[simp] theorem State.goto_fwEntry (s : State) (pc : Word) : (s.goto pc).fwEntry = s.fwEntry := rfl
@[simp] theorem State.goto_now (s : State) (pc : Word) : (s.goto pc).now = s.now := rfl
@[simp] theorem State.goto_timeOffset (s : State) (pc : Word) : (s.goto pc).timeOffset = s.timeOffset := rfl
@[simp] theorem State.goto_nparts (s : State) (pc : Word) : (s.goto pc).nparts = s.nparts := rfl
@[simp] theorem State.goto_powerLimit (s : State) (pc : Word) : (s.goto pc).powerLimit = s.powerLimit := rfl
@[simp] theorem State.goto_attested (s : State) (pc : Word) : (s.goto pc).attested = s.attested := rfl
@[simp] theorem State.goto_reports (s : State) (pc : Word) : (s.goto pc).reports = s.reports := rfl
@[simp] theorem State.goto_reportPending (s : State) (pc : Word) : (s.goto pc).reportPending = s.reportPending := rfl
@[simp] theorem State.goto_msix (s : State) (pc : Word) : (s.goto pc).msix = s.msix := rfl
@[simp] theorem State.goto_mgmtLog (s : State) (pc : Word) : (s.goto pc).mgmtLog = s.mgmtLog := rfl
@[simp] theorem State.goto_drawn (s : State) (pc : Word) : (s.goto pc).drawn = s.drawn := rfl
@[simp] theorem State.goto_agenda (s : State) (pc : Word) : (s.goto pc).agenda = s.agenda := rfl
@[simp] theorem State.goto_later (s : State) (pc : Word) : (s.goto pc).later = s.later := rfl

/-! Execution goes on with the next word. -/

@[simp] theorem State.retire_me (s : State) : (s.retire).me = { s.me with pc := s.me.pc + 4, wait := {}, owed := [] } := rfl
@[simp] theorem State.retire_key (s : State) : (s.retire).key = s.key := rfl
@[simp] theorem State.retire_others (s : State) : (s.retire).others = s.others := rfl
@[simp] theorem State.retire_cores (s : State) : (s.retire).cores = s.cores := rfl
@[simp] theorem State.retire_dies (s : State) : (s.retire).dies = s.dies := rfl
@[simp] theorem State.retire_parts (s : State) : (s.retire).parts = s.parts := rfl
@[simp] theorem State.retire_launches (s : State) : (s.retire).launches = s.launches := rfl
@[simp] theorem State.retire_gangs (s : State) : (s.retire).gangs = s.gangs := rfl
@[simp] theorem State.retire_apps (s : State) : (s.retire).apps = s.apps := rfl
@[simp] theorem State.retire_onces (s : State) : (s.retire).onces = s.onces := rfl
@[simp] theorem State.retire_shoots (s : State) : (s.retire).shoots = s.shoots := rfl
@[simp] theorem State.retire_failedPeers (s : State) : (s.retire).failedPeers = s.failedPeers := rfl
@[simp] theorem State.retire_peerHolds (s : State) : (s.retire).peerHolds = s.peerHolds := rfl
@[simp] theorem State.retire_streams (s : State) : (s.retire).streams = s.streams := rfl
@[simp] theorem State.retire_syncs (s : State) : (s.retire).syncs = s.syncs := rfl
@[simp] theorem State.retire_lineSig (s : State) : (s.retire).lineSig = s.lineSig := rfl
@[simp] theorem State.retire_mem (s : State) : (s.retire).mem = s.mem := rfl
@[simp] theorem State.retire_lostLines (s : State) : (s.retire).lostLines = s.lostLines := rfl
@[simp] theorem State.retire_retiredFrames (s : State) : (s.retire).retiredFrames = s.retiredFrames := rfl
@[simp] theorem State.retire_gone (s : State) : (s.retire).gone = s.gone := rfl
@[simp] theorem State.retire_kept (s : State) : (s.retire).kept = s.kept := rfl
@[simp] theorem State.retire_l2Errors (s : State) : (s.retire).l2Errors = s.l2Errors := rfl
@[simp] theorem State.retire_rowErrors (s : State) : (s.retire).rowErrors = s.rowErrors := rfl
@[simp] theorem State.retire_stage (s : State) : (s.retire).stage = s.stage := rfl
@[simp] theorem State.retire_fwEntry (s : State) : (s.retire).fwEntry = s.fwEntry := rfl
@[simp] theorem State.retire_now (s : State) : (s.retire).now = s.now := rfl
@[simp] theorem State.retire_timeOffset (s : State) : (s.retire).timeOffset = s.timeOffset := rfl
@[simp] theorem State.retire_nparts (s : State) : (s.retire).nparts = s.nparts := rfl
@[simp] theorem State.retire_powerLimit (s : State) : (s.retire).powerLimit = s.powerLimit := rfl
@[simp] theorem State.retire_attested (s : State) : (s.retire).attested = s.attested := rfl
@[simp] theorem State.retire_reports (s : State) : (s.retire).reports = s.reports := rfl
@[simp] theorem State.retire_reportPending (s : State) : (s.retire).reportPending = s.reportPending := rfl
@[simp] theorem State.retire_msix (s : State) : (s.retire).msix = s.msix := rfl
@[simp] theorem State.retire_mgmtLog (s : State) : (s.retire).mgmtLog = s.mgmtLog := rfl
@[simp] theorem State.retire_drawn (s : State) : (s.retire).drawn = s.drawn := rfl
@[simp] theorem State.retire_agenda (s : State) : (s.retire).agenda = s.agenda := rfl
@[simp] theorem State.retire_later (s : State) : (s.retire).later = s.later := rfl

/-! A slot is written. -/

@[simp] theorem State.putSlot_key (s : State) (n : Nat) (x : Slot) : (s.putSlot n x).key = s.key := rfl
@[simp] theorem State.putSlot_others (s : State) (n : Nat) (x : Slot) : (s.putSlot n x).others = s.others := rfl
@[simp] theorem State.putSlot_cores (s : State) (n : Nat) (x : Slot) : (s.putSlot n x).cores = s.cores := rfl
@[simp] theorem State.putSlot_dies (s : State) (n : Nat) (x : Slot) : (s.putSlot n x).dies = s.dies := rfl
@[simp] theorem State.putSlot_parts (s : State) (n : Nat) (x : Slot) : (s.putSlot n x).parts = s.parts := rfl
@[simp] theorem State.putSlot_launches (s : State) (n : Nat) (x : Slot) : (s.putSlot n x).launches = s.launches := rfl
@[simp] theorem State.putSlot_gangs (s : State) (n : Nat) (x : Slot) : (s.putSlot n x).gangs = s.gangs := rfl
@[simp] theorem State.putSlot_apps (s : State) (n : Nat) (x : Slot) : (s.putSlot n x).apps = s.apps := rfl
@[simp] theorem State.putSlot_onces (s : State) (n : Nat) (x : Slot) : (s.putSlot n x).onces = s.onces := rfl
@[simp] theorem State.putSlot_shoots (s : State) (n : Nat) (x : Slot) : (s.putSlot n x).shoots = s.shoots := rfl
@[simp] theorem State.putSlot_failedPeers (s : State) (n : Nat) (x : Slot) : (s.putSlot n x).failedPeers = s.failedPeers := rfl
@[simp] theorem State.putSlot_peerHolds (s : State) (n : Nat) (x : Slot) : (s.putSlot n x).peerHolds = s.peerHolds := rfl
@[simp] theorem State.putSlot_streams (s : State) (n : Nat) (x : Slot) : (s.putSlot n x).streams = s.streams := rfl
@[simp] theorem State.putSlot_syncs (s : State) (n : Nat) (x : Slot) : (s.putSlot n x).syncs = s.syncs := rfl
@[simp] theorem State.putSlot_lineSig (s : State) (n : Nat) (x : Slot) : (s.putSlot n x).lineSig = s.lineSig := rfl
@[simp] theorem State.putSlot_mem (s : State) (n : Nat) (x : Slot) : (s.putSlot n x).mem = s.mem := rfl
@[simp] theorem State.putSlot_lostLines (s : State) (n : Nat) (x : Slot) : (s.putSlot n x).lostLines = s.lostLines := rfl
@[simp] theorem State.putSlot_retiredFrames (s : State) (n : Nat) (x : Slot) : (s.putSlot n x).retiredFrames = s.retiredFrames := rfl
@[simp] theorem State.putSlot_gone (s : State) (n : Nat) (x : Slot) : (s.putSlot n x).gone = s.gone := rfl
@[simp] theorem State.putSlot_kept (s : State) (n : Nat) (x : Slot) : (s.putSlot n x).kept = s.kept := rfl
@[simp] theorem State.putSlot_l2Errors (s : State) (n : Nat) (x : Slot) : (s.putSlot n x).l2Errors = s.l2Errors := rfl
@[simp] theorem State.putSlot_rowErrors (s : State) (n : Nat) (x : Slot) : (s.putSlot n x).rowErrors = s.rowErrors := rfl
@[simp] theorem State.putSlot_stage (s : State) (n : Nat) (x : Slot) : (s.putSlot n x).stage = s.stage := rfl
@[simp] theorem State.putSlot_fwEntry (s : State) (n : Nat) (x : Slot) : (s.putSlot n x).fwEntry = s.fwEntry := rfl
@[simp] theorem State.putSlot_now (s : State) (n : Nat) (x : Slot) : (s.putSlot n x).now = s.now := rfl
@[simp] theorem State.putSlot_timeOffset (s : State) (n : Nat) (x : Slot) : (s.putSlot n x).timeOffset = s.timeOffset := rfl
@[simp] theorem State.putSlot_nparts (s : State) (n : Nat) (x : Slot) : (s.putSlot n x).nparts = s.nparts := rfl
@[simp] theorem State.putSlot_powerLimit (s : State) (n : Nat) (x : Slot) : (s.putSlot n x).powerLimit = s.powerLimit := rfl
@[simp] theorem State.putSlot_attested (s : State) (n : Nat) (x : Slot) : (s.putSlot n x).attested = s.attested := rfl
@[simp] theorem State.putSlot_reports (s : State) (n : Nat) (x : Slot) : (s.putSlot n x).reports = s.reports := rfl
@[simp] theorem State.putSlot_reportPending (s : State) (n : Nat) (x : Slot) : (s.putSlot n x).reportPending = s.reportPending := rfl
@[simp] theorem State.putSlot_msix (s : State) (n : Nat) (x : Slot) : (s.putSlot n x).msix = s.msix := rfl
@[simp] theorem State.putSlot_mgmtLog (s : State) (n : Nat) (x : Slot) : (s.putSlot n x).mgmtLog = s.mgmtLog := rfl
@[simp] theorem State.putSlot_drawn (s : State) (n : Nat) (x : Slot) : (s.putSlot n x).drawn = s.drawn := rfl
@[simp] theorem State.putSlot_agenda (s : State) (n : Nat) (x : Slot) : (s.putSlot n x).agenda = s.agenda := rfl
@[simp] theorem State.putSlot_later (s : State) (n : Nat) (x : Slot) : (s.putSlot n x).later = s.later := rfl

/-! The registers leave an entry. -/

@[simp] theorem putFile_key (s : State) (f : VFile) : (putFile s f).key = s.key := rfl
@[simp] theorem putFile_others (s : State) (f : VFile) : (putFile s f).others = s.others := rfl
@[simp] theorem putFile_cores (s : State) (f : VFile) : (putFile s f).cores = s.cores := rfl
@[simp] theorem putFile_dies (s : State) (f : VFile) : (putFile s f).dies = s.dies := rfl
@[simp] theorem putFile_parts (s : State) (f : VFile) : (putFile s f).parts = s.parts := rfl
@[simp] theorem putFile_launches (s : State) (f : VFile) : (putFile s f).launches = s.launches := rfl
@[simp] theorem putFile_gangs (s : State) (f : VFile) : (putFile s f).gangs = s.gangs := rfl
@[simp] theorem putFile_apps (s : State) (f : VFile) : (putFile s f).apps = s.apps := rfl
@[simp] theorem putFile_onces (s : State) (f : VFile) : (putFile s f).onces = s.onces := rfl
@[simp] theorem putFile_shoots (s : State) (f : VFile) : (putFile s f).shoots = s.shoots := rfl
@[simp] theorem putFile_failedPeers (s : State) (f : VFile) : (putFile s f).failedPeers = s.failedPeers := rfl
@[simp] theorem putFile_peerHolds (s : State) (f : VFile) : (putFile s f).peerHolds = s.peerHolds := rfl
@[simp] theorem putFile_streams (s : State) (f : VFile) : (putFile s f).streams = s.streams := rfl
@[simp] theorem putFile_syncs (s : State) (f : VFile) : (putFile s f).syncs = s.syncs := rfl
@[simp] theorem putFile_lineSig (s : State) (f : VFile) : (putFile s f).lineSig = s.lineSig := rfl
@[simp] theorem putFile_mem (s : State) (f : VFile) : (putFile s f).mem = s.mem := rfl
@[simp] theorem putFile_lostLines (s : State) (f : VFile) : (putFile s f).lostLines = s.lostLines := rfl
@[simp] theorem putFile_retiredFrames (s : State) (f : VFile) : (putFile s f).retiredFrames = s.retiredFrames := rfl
@[simp] theorem putFile_gone (s : State) (f : VFile) : (putFile s f).gone = s.gone := rfl
@[simp] theorem putFile_kept (s : State) (f : VFile) : (putFile s f).kept = s.kept := rfl
@[simp] theorem putFile_l2Errors (s : State) (f : VFile) : (putFile s f).l2Errors = s.l2Errors := rfl
@[simp] theorem putFile_rowErrors (s : State) (f : VFile) : (putFile s f).rowErrors = s.rowErrors := rfl
@[simp] theorem putFile_stage (s : State) (f : VFile) : (putFile s f).stage = s.stage := rfl
@[simp] theorem putFile_fwEntry (s : State) (f : VFile) : (putFile s f).fwEntry = s.fwEntry := rfl
@[simp] theorem putFile_now (s : State) (f : VFile) : (putFile s f).now = s.now := rfl
@[simp] theorem putFile_timeOffset (s : State) (f : VFile) : (putFile s f).timeOffset = s.timeOffset := rfl
@[simp] theorem putFile_nparts (s : State) (f : VFile) : (putFile s f).nparts = s.nparts := rfl
@[simp] theorem putFile_powerLimit (s : State) (f : VFile) : (putFile s f).powerLimit = s.powerLimit := rfl
@[simp] theorem putFile_attested (s : State) (f : VFile) : (putFile s f).attested = s.attested := rfl
@[simp] theorem putFile_reports (s : State) (f : VFile) : (putFile s f).reports = s.reports := rfl
@[simp] theorem putFile_reportPending (s : State) (f : VFile) : (putFile s f).reportPending = s.reportPending := rfl
@[simp] theorem putFile_msix (s : State) (f : VFile) : (putFile s f).msix = s.msix := rfl
@[simp] theorem putFile_mgmtLog (s : State) (f : VFile) : (putFile s f).mgmtLog = s.mgmtLog := rfl
@[simp] theorem putFile_drawn (s : State) (f : VFile) : (putFile s f).drawn = s.drawn := rfl
@[simp] theorem putFile_agenda (s : State) (f : VFile) : (putFile s f).agenda = s.agenda := rfl
@[simp] theorem putFile_later (s : State) (f : VFile) : (putFile s f).later = s.later := rfl

/-! A core changes. -/

@[simp] theorem State.modCore_key (s : State) (c : Nat) (f : Core → Core) : (s.modCore c f).key = s.key := rfl
@[simp] theorem State.modCore_me (s : State) (c : Nat) (f : Core → Core) : (s.modCore c f).me = s.me := rfl
@[simp] theorem State.modCore_others (s : State) (c : Nat) (f : Core → Core) : (s.modCore c f).others = s.others := rfl
@[simp] theorem State.modCore_dies (s : State) (c : Nat) (f : Core → Core) : (s.modCore c f).dies = s.dies := rfl
@[simp] theorem State.modCore_parts (s : State) (c : Nat) (f : Core → Core) : (s.modCore c f).parts = s.parts := rfl
@[simp] theorem State.modCore_launches (s : State) (c : Nat) (f : Core → Core) : (s.modCore c f).launches = s.launches := rfl
@[simp] theorem State.modCore_gangs (s : State) (c : Nat) (f : Core → Core) : (s.modCore c f).gangs = s.gangs := rfl
@[simp] theorem State.modCore_apps (s : State) (c : Nat) (f : Core → Core) : (s.modCore c f).apps = s.apps := rfl
@[simp] theorem State.modCore_onces (s : State) (c : Nat) (f : Core → Core) : (s.modCore c f).onces = s.onces := rfl
@[simp] theorem State.modCore_shoots (s : State) (c : Nat) (f : Core → Core) : (s.modCore c f).shoots = s.shoots := rfl
@[simp] theorem State.modCore_failedPeers (s : State) (c : Nat) (f : Core → Core) : (s.modCore c f).failedPeers = s.failedPeers := rfl
@[simp] theorem State.modCore_peerHolds (s : State) (c : Nat) (f : Core → Core) : (s.modCore c f).peerHolds = s.peerHolds := rfl
@[simp] theorem State.modCore_streams (s : State) (c : Nat) (f : Core → Core) : (s.modCore c f).streams = s.streams := rfl
@[simp] theorem State.modCore_syncs (s : State) (c : Nat) (f : Core → Core) : (s.modCore c f).syncs = s.syncs := rfl
@[simp] theorem State.modCore_lineSig (s : State) (c : Nat) (f : Core → Core) : (s.modCore c f).lineSig = s.lineSig := rfl
@[simp] theorem State.modCore_mem (s : State) (c : Nat) (f : Core → Core) : (s.modCore c f).mem = s.mem := rfl
@[simp] theorem State.modCore_lostLines (s : State) (c : Nat) (f : Core → Core) : (s.modCore c f).lostLines = s.lostLines := rfl
@[simp] theorem State.modCore_retiredFrames (s : State) (c : Nat) (f : Core → Core) : (s.modCore c f).retiredFrames = s.retiredFrames := rfl
@[simp] theorem State.modCore_gone (s : State) (c : Nat) (f : Core → Core) : (s.modCore c f).gone = s.gone := rfl
@[simp] theorem State.modCore_kept (s : State) (c : Nat) (f : Core → Core) : (s.modCore c f).kept = s.kept := rfl
@[simp] theorem State.modCore_l2Errors (s : State) (c : Nat) (f : Core → Core) : (s.modCore c f).l2Errors = s.l2Errors := rfl
@[simp] theorem State.modCore_rowErrors (s : State) (c : Nat) (f : Core → Core) : (s.modCore c f).rowErrors = s.rowErrors := rfl
@[simp] theorem State.modCore_stage (s : State) (c : Nat) (f : Core → Core) : (s.modCore c f).stage = s.stage := rfl
@[simp] theorem State.modCore_fwEntry (s : State) (c : Nat) (f : Core → Core) : (s.modCore c f).fwEntry = s.fwEntry := rfl
@[simp] theorem State.modCore_now (s : State) (c : Nat) (f : Core → Core) : (s.modCore c f).now = s.now := rfl
@[simp] theorem State.modCore_timeOffset (s : State) (c : Nat) (f : Core → Core) : (s.modCore c f).timeOffset = s.timeOffset := rfl
@[simp] theorem State.modCore_nparts (s : State) (c : Nat) (f : Core → Core) : (s.modCore c f).nparts = s.nparts := rfl
@[simp] theorem State.modCore_powerLimit (s : State) (c : Nat) (f : Core → Core) : (s.modCore c f).powerLimit = s.powerLimit := rfl
@[simp] theorem State.modCore_attested (s : State) (c : Nat) (f : Core → Core) : (s.modCore c f).attested = s.attested := rfl
@[simp] theorem State.modCore_reports (s : State) (c : Nat) (f : Core → Core) : (s.modCore c f).reports = s.reports := rfl
@[simp] theorem State.modCore_reportPending (s : State) (c : Nat) (f : Core → Core) : (s.modCore c f).reportPending = s.reportPending := rfl
@[simp] theorem State.modCore_msix (s : State) (c : Nat) (f : Core → Core) : (s.modCore c f).msix = s.msix := rfl
@[simp] theorem State.modCore_mgmtLog (s : State) (c : Nat) (f : Core → Core) : (s.modCore c f).mgmtLog = s.mgmtLog := rfl
@[simp] theorem State.modCore_drawn (s : State) (c : Nat) (f : Core → Core) : (s.modCore c f).drawn = s.drawn := rfl
@[simp] theorem State.modCore_agenda (s : State) (c : Nat) (f : Core → Core) : (s.modCore c f).agenda = s.agenda := rfl
@[simp] theorem State.modCore_later (s : State) (c : Nat) (f : Core → Core) : (s.modCore c f).later = s.later := rfl

/-! A die changes. -/

@[simp] theorem State.modDie_key (s : State) (d : Nat) (f : Die → Die) : (s.modDie d f).key = s.key := rfl
@[simp] theorem State.modDie_me (s : State) (d : Nat) (f : Die → Die) : (s.modDie d f).me = s.me := rfl
@[simp] theorem State.modDie_others (s : State) (d : Nat) (f : Die → Die) : (s.modDie d f).others = s.others := rfl
@[simp] theorem State.modDie_cores (s : State) (d : Nat) (f : Die → Die) : (s.modDie d f).cores = s.cores := rfl
@[simp] theorem State.modDie_parts (s : State) (d : Nat) (f : Die → Die) : (s.modDie d f).parts = s.parts := rfl
@[simp] theorem State.modDie_launches (s : State) (d : Nat) (f : Die → Die) : (s.modDie d f).launches = s.launches := rfl
@[simp] theorem State.modDie_gangs (s : State) (d : Nat) (f : Die → Die) : (s.modDie d f).gangs = s.gangs := rfl
@[simp] theorem State.modDie_apps (s : State) (d : Nat) (f : Die → Die) : (s.modDie d f).apps = s.apps := rfl
@[simp] theorem State.modDie_onces (s : State) (d : Nat) (f : Die → Die) : (s.modDie d f).onces = s.onces := rfl
@[simp] theorem State.modDie_shoots (s : State) (d : Nat) (f : Die → Die) : (s.modDie d f).shoots = s.shoots := rfl
@[simp] theorem State.modDie_failedPeers (s : State) (d : Nat) (f : Die → Die) : (s.modDie d f).failedPeers = s.failedPeers := rfl
@[simp] theorem State.modDie_peerHolds (s : State) (d : Nat) (f : Die → Die) : (s.modDie d f).peerHolds = s.peerHolds := rfl
@[simp] theorem State.modDie_streams (s : State) (d : Nat) (f : Die → Die) : (s.modDie d f).streams = s.streams := rfl
@[simp] theorem State.modDie_syncs (s : State) (d : Nat) (f : Die → Die) : (s.modDie d f).syncs = s.syncs := rfl
@[simp] theorem State.modDie_lineSig (s : State) (d : Nat) (f : Die → Die) : (s.modDie d f).lineSig = s.lineSig := rfl
@[simp] theorem State.modDie_mem (s : State) (d : Nat) (f : Die → Die) : (s.modDie d f).mem = s.mem := rfl
@[simp] theorem State.modDie_lostLines (s : State) (d : Nat) (f : Die → Die) : (s.modDie d f).lostLines = s.lostLines := rfl
@[simp] theorem State.modDie_retiredFrames (s : State) (d : Nat) (f : Die → Die) : (s.modDie d f).retiredFrames = s.retiredFrames := rfl
@[simp] theorem State.modDie_gone (s : State) (d : Nat) (f : Die → Die) : (s.modDie d f).gone = s.gone := rfl
@[simp] theorem State.modDie_kept (s : State) (d : Nat) (f : Die → Die) : (s.modDie d f).kept = s.kept := rfl
@[simp] theorem State.modDie_l2Errors (s : State) (d : Nat) (f : Die → Die) : (s.modDie d f).l2Errors = s.l2Errors := rfl
@[simp] theorem State.modDie_rowErrors (s : State) (d : Nat) (f : Die → Die) : (s.modDie d f).rowErrors = s.rowErrors := rfl
@[simp] theorem State.modDie_stage (s : State) (d : Nat) (f : Die → Die) : (s.modDie d f).stage = s.stage := rfl
@[simp] theorem State.modDie_fwEntry (s : State) (d : Nat) (f : Die → Die) : (s.modDie d f).fwEntry = s.fwEntry := rfl
@[simp] theorem State.modDie_now (s : State) (d : Nat) (f : Die → Die) : (s.modDie d f).now = s.now := rfl
@[simp] theorem State.modDie_timeOffset (s : State) (d : Nat) (f : Die → Die) : (s.modDie d f).timeOffset = s.timeOffset := rfl
@[simp] theorem State.modDie_nparts (s : State) (d : Nat) (f : Die → Die) : (s.modDie d f).nparts = s.nparts := rfl
@[simp] theorem State.modDie_powerLimit (s : State) (d : Nat) (f : Die → Die) : (s.modDie d f).powerLimit = s.powerLimit := rfl
@[simp] theorem State.modDie_attested (s : State) (d : Nat) (f : Die → Die) : (s.modDie d f).attested = s.attested := rfl
@[simp] theorem State.modDie_reports (s : State) (d : Nat) (f : Die → Die) : (s.modDie d f).reports = s.reports := rfl
@[simp] theorem State.modDie_reportPending (s : State) (d : Nat) (f : Die → Die) : (s.modDie d f).reportPending = s.reportPending := rfl
@[simp] theorem State.modDie_msix (s : State) (d : Nat) (f : Die → Die) : (s.modDie d f).msix = s.msix := rfl
@[simp] theorem State.modDie_mgmtLog (s : State) (d : Nat) (f : Die → Die) : (s.modDie d f).mgmtLog = s.mgmtLog := rfl
@[simp] theorem State.modDie_drawn (s : State) (d : Nat) (f : Die → Die) : (s.modDie d f).drawn = s.drawn := rfl
@[simp] theorem State.modDie_agenda (s : State) (d : Nat) (f : Die → Die) : (s.modDie d f).agenda = s.agenda := rfl
@[simp] theorem State.modDie_later (s : State) (d : Nat) (f : Die → Die) : (s.modDie d f).later = s.later := rfl

/-! A partition changes. -/

@[simp] theorem State.modPart_key (s : State) (p : Nat) (f : Part → Part) : (s.modPart p f).key = s.key := rfl
@[simp] theorem State.modPart_me (s : State) (p : Nat) (f : Part → Part) : (s.modPart p f).me = s.me := rfl
@[simp] theorem State.modPart_others (s : State) (p : Nat) (f : Part → Part) : (s.modPart p f).others = s.others := rfl
@[simp] theorem State.modPart_cores (s : State) (p : Nat) (f : Part → Part) : (s.modPart p f).cores = s.cores := rfl
@[simp] theorem State.modPart_dies (s : State) (p : Nat) (f : Part → Part) : (s.modPart p f).dies = s.dies := rfl
@[simp] theorem State.modPart_launches (s : State) (p : Nat) (f : Part → Part) : (s.modPart p f).launches = s.launches := rfl
@[simp] theorem State.modPart_gangs (s : State) (p : Nat) (f : Part → Part) : (s.modPart p f).gangs = s.gangs := rfl
@[simp] theorem State.modPart_apps (s : State) (p : Nat) (f : Part → Part) : (s.modPart p f).apps = s.apps := rfl
@[simp] theorem State.modPart_onces (s : State) (p : Nat) (f : Part → Part) : (s.modPart p f).onces = s.onces := rfl
@[simp] theorem State.modPart_shoots (s : State) (p : Nat) (f : Part → Part) : (s.modPart p f).shoots = s.shoots := rfl
@[simp] theorem State.modPart_failedPeers (s : State) (p : Nat) (f : Part → Part) : (s.modPart p f).failedPeers = s.failedPeers := rfl
@[simp] theorem State.modPart_peerHolds (s : State) (p : Nat) (f : Part → Part) : (s.modPart p f).peerHolds = s.peerHolds := rfl
@[simp] theorem State.modPart_streams (s : State) (p : Nat) (f : Part → Part) : (s.modPart p f).streams = s.streams := rfl
@[simp] theorem State.modPart_syncs (s : State) (p : Nat) (f : Part → Part) : (s.modPart p f).syncs = s.syncs := rfl
@[simp] theorem State.modPart_lineSig (s : State) (p : Nat) (f : Part → Part) : (s.modPart p f).lineSig = s.lineSig := rfl
@[simp] theorem State.modPart_mem (s : State) (p : Nat) (f : Part → Part) : (s.modPart p f).mem = s.mem := rfl
@[simp] theorem State.modPart_lostLines (s : State) (p : Nat) (f : Part → Part) : (s.modPart p f).lostLines = s.lostLines := rfl
@[simp] theorem State.modPart_retiredFrames (s : State) (p : Nat) (f : Part → Part) : (s.modPart p f).retiredFrames = s.retiredFrames := rfl
@[simp] theorem State.modPart_gone (s : State) (p : Nat) (f : Part → Part) : (s.modPart p f).gone = s.gone := rfl
@[simp] theorem State.modPart_kept (s : State) (p : Nat) (f : Part → Part) : (s.modPart p f).kept = s.kept := rfl
@[simp] theorem State.modPart_l2Errors (s : State) (p : Nat) (f : Part → Part) : (s.modPart p f).l2Errors = s.l2Errors := rfl
@[simp] theorem State.modPart_rowErrors (s : State) (p : Nat) (f : Part → Part) : (s.modPart p f).rowErrors = s.rowErrors := rfl
@[simp] theorem State.modPart_stage (s : State) (p : Nat) (f : Part → Part) : (s.modPart p f).stage = s.stage := rfl
@[simp] theorem State.modPart_fwEntry (s : State) (p : Nat) (f : Part → Part) : (s.modPart p f).fwEntry = s.fwEntry := rfl
@[simp] theorem State.modPart_now (s : State) (p : Nat) (f : Part → Part) : (s.modPart p f).now = s.now := rfl
@[simp] theorem State.modPart_timeOffset (s : State) (p : Nat) (f : Part → Part) : (s.modPart p f).timeOffset = s.timeOffset := rfl
@[simp] theorem State.modPart_nparts (s : State) (p : Nat) (f : Part → Part) : (s.modPart p f).nparts = s.nparts := rfl
@[simp] theorem State.modPart_powerLimit (s : State) (p : Nat) (f : Part → Part) : (s.modPart p f).powerLimit = s.powerLimit := rfl
@[simp] theorem State.modPart_attested (s : State) (p : Nat) (f : Part → Part) : (s.modPart p f).attested = s.attested := rfl
@[simp] theorem State.modPart_reports (s : State) (p : Nat) (f : Part → Part) : (s.modPart p f).reports = s.reports := rfl
@[simp] theorem State.modPart_reportPending (s : State) (p : Nat) (f : Part → Part) : (s.modPart p f).reportPending = s.reportPending := rfl
@[simp] theorem State.modPart_msix (s : State) (p : Nat) (f : Part → Part) : (s.modPart p f).msix = s.msix := rfl
@[simp] theorem State.modPart_mgmtLog (s : State) (p : Nat) (f : Part → Part) : (s.modPart p f).mgmtLog = s.mgmtLog := rfl
@[simp] theorem State.modPart_drawn (s : State) (p : Nat) (f : Part → Part) : (s.modPart p f).drawn = s.drawn := rfl
@[simp] theorem State.modPart_agenda (s : State) (p : Nat) (f : Part → Part) : (s.modPart p f).agenda = s.agenda := rfl
@[simp] theorem State.modPart_later (s : State) (p : Nat) (f : Part → Part) : (s.modPart p f).later = s.later := rfl

/-! A register of a strand is written: every other field stays. -/

@[simp] theorem Strand.wr_fliven (t : Strand) (r : SReg) (x : Word) : (t.wr r x).fliven = t.fliven := by
  unfold Strand.wr; split <;> rfl
@[simp] theorem Strand.wr_status (t : Strand) (r : SReg) (x : Word) : (t.wr r x).status = t.status := by
  unfold Strand.wr; split <;> rfl
@[simp] theorem Strand.wr_pc (t : Strand) (r : SReg) (x : Word) : (t.wr r x).pc = t.pc := by
  unfold Strand.wr; split <;> rfl
@[simp] theorem Strand.wr_level (t : Strand) (r : SReg) (x : Word) : (t.wr r x).level = t.level := by
  unfold Strand.wr; split <;> rfl
@[simp] theorem Strand.wr_pd (t : Strand) (r : SReg) (x : Word) : (t.wr r x).pd = t.pd := by
  unfold Strand.wr; split <;> rfl
@[simp] theorem Strand.wr_fd (t : Strand) (r : SReg) (x : Word) : (t.wr r x).fd = t.fd := by
  unfold Strand.wr; split <;> rfl
@[simp] theorem Strand.wr_fcsr (t : Strand) (r : SReg) (x : Word) : (t.wr r x).fcsr = t.fcsr := by
  unfold Strand.wr; split <;> rfl
@[simp] theorem Strand.wr_efc (t : Strand) (r : SReg) (x : Word) : (t.wr r x).efc = t.efc := by
  unfold Strand.wr; split <;> rfl
@[simp] theorem Strand.wr_hspan (t : Strand) (r : SReg) (x : Word) : (t.wr r x).hspan = t.hspan := by
  unfold Strand.wr; split <;> rfl
@[simp] theorem Strand.wr_wto (t : Strand) (r : SReg) (x : Word) : (t.wr r x).wto = t.wto := by
  unfold Strand.wr; split <;> rfl
@[simp] theorem Strand.wr_traph (t : Strand) (r : SReg) (x : Word) : (t.wr r x).traph = t.traph := by
  unfold Strand.wr; split <;> rfl
@[simp] theorem Strand.wr_glink (t : Strand) (r : SReg) (x : Word) : (t.wr r x).glink = t.glink := by
  unfold Strand.wr; split <;> rfl
@[simp] theorem Strand.wr_glevel (t : Strand) (r : SReg) (x : Word) : (t.wr r x).glevel = t.glevel := by
  unfold Strand.wr; split <;> rfl
@[simp] theorem Strand.wr_seqNext (t : Strand) (r : SReg) (x : Word) : (t.wr r x).seqNext = t.seqNext := by
  unfold Strand.wr; split <;> rfl
@[simp] theorem Strand.wr_queue (t : Strand) (r : SReg) (x : Word) : (t.wr r x).queue = t.queue := by
  unfold Strand.wr; split <;> rfl
@[simp] theorem Strand.wr_v (t : Strand) (r : SReg) (x : Word) : (t.wr r x).v = t.v := by
  unfold Strand.wr; split <;> rfl
@[simp] theorem Strand.wr_id (t : Strand) (r : SReg) (x : Word) : (t.wr r x).id = t.id := by
  unfold Strand.wr; split <;> rfl
@[simp] theorem Strand.wr_fl (t : Strand) (r : SReg) (x : Word) : (t.wr r x).fl = t.fl := by
  unfold Strand.wr; split <;> rfl
@[simp] theorem Strand.wr_ord (t : Strand) (r : SReg) (x : Word) : (t.wr r x).ord = t.ord := by
  unfold Strand.wr; split <;> rfl
@[simp] theorem Strand.wr_wait (t : Strand) (r : SReg) (x : Word) : (t.wr r x).wait = t.wait := by
  unfold Strand.wr; split <;> rfl
@[simp] theorem Strand.wr_stopSeq (t : Strand) (r : SReg) (x : Word) : (t.wr r x).stopSeq = t.stopSeq := by
  unfold Strand.wr; split <;> rfl
@[simp] theorem Strand.wr_stopped (t : Strand) (r : SReg) (x : Word) : (t.wr r x).stopped = t.stopped := by
  unfold Strand.wr; split <;> rfl
@[simp] theorem Strand.wr_stopKind (t : Strand) (r : SReg) (x : Word) : (t.wr r x).stopKind = t.stopKind := by
  unfold Strand.wr; split <;> rfl
@[simp] theorem Strand.wr_owed (t : Strand) (r : SReg) (x : Word) : (t.wr r x).owed = t.owed := by
  unfold Strand.wr; split <;> rfl

/-! Tables by key. -/

theorem Map.getD_set_self {α : Type} (m : Map α) (k : Nat) (v d : α) : Map.getD (Map.set m k v) k d = v := by
  simp [Map.getD]

theorem Map.getD_set_ne {α : Type} (m : Map α) (k l : Nat) (v d : α) (h : l ≠ k) :
    Map.getD (Map.set m k v) l d = Map.getD m l d := by
  simp [Map.getD, Map.get?_set_ne m k l v h]

@[simp] theorem State.core_modCore_self (s : State) (c : Nat) (f : Core → Core) : (s.modCore c f).core c = f (s.core c) :=
  Map.getD_set_self _ _ _ _

theorem State.core_modCore_ne (s : State) (c k : Nat) (f : Core → Core) (h : k ≠ c) : (s.modCore c f).core k = s.core k :=
  Map.getD_set_ne _ _ _ _ _ h

@[simp] theorem State.die_modDie_self (s : State) (d : Nat) (f : Die → Die) : (s.modDie d f).die d = f (s.die d) :=
  Map.getD_set_self _ _ _ _

theorem State.die_modDie_ne (s : State) (d k : Nat) (f : Die → Die) (h : k ≠ d) : (s.modDie d f).die k = s.die k :=
  Map.getD_set_ne _ _ _ _ _ h

@[simp] theorem State.part_modPart_self (s : State) (p : Nat) (f : Part → Part) : (s.modPart p f).part p = f (s.part p) :=
  Map.getD_set_self _ _ _ _

theorem State.part_modPart_ne (s : State) (p k : Nat) (f : Part → Part) (h : k ≠ p) : (s.modPart p f).part k = s.part k :=
  Map.getD_set_ne _ _ _ _ _ h

@[simp] theorem State.core_modMe (s : State) (f : Strand → Strand) (c : Nat) : (s.modMe f).core c = s.core c := rfl
@[simp] theorem State.die_modMe (s : State) (f : Strand → Strand) (d : Nat) : (s.modMe f).die d = s.die d := rfl
@[simp] theorem State.part_modMe (s : State) (f : Strand → Strand) (p : Nat) : (s.modMe f).part p = s.part p := rfl

/-! Registers read after a write (03_state R31). -/

@[simp] theorem State.rd_zero (s : State) : s.rd 0 = 0 := rfl

@[simp] theorem State.wr_zero (s : State) (x : Word) : s.wr 0 x = s := rfl

theorem State.rd_wr_self (s : State) (r : SReg) (x : Word) (h : r ≠ 0) : (s.wr r x).rd r = x := by
  unfold State.rd State.wr Strand.wr
  rw [if_neg h]
  simp only [if_neg h, Vector.getElem_set_self]

theorem State.rd_wr_ne (s : State) (r q : SReg) (x : Word) (h : q ≠ r) : (s.wr r x).rd q = s.rd q := by
  unfold State.rd State.wr Strand.wr
  by_cases hq : q = 0
  · simp only [if_pos hq]
  · by_cases hr : r = 0
    · simp only [if_pos hr]
    · have : r.toNat ≠ q.toNat := fun e => h (BitVec.eq_of_toNat_eq e.symm)
      simp only [if_neg hq, if_neg hr, Vector.getElem_set, if_neg this]

@[simp] theorem State.rd_goto (s : State) (pc : Word) (r : SReg) : (s.goto pc).rd r = s.rd r := rfl
@[simp] theorem State.rd_retire (s : State) (r : SReg) : s.retire.rd r = s.rd r := rfl
@[simp] theorem State.rd_modCore (s : State) (c : Nat) (f : Core → Core) (r : SReg) : (s.modCore c f).rd r = s.rd r := rfl

/-! Slots read after a write. -/

@[simp] theorem State.slot_putSlot_self (s : State) (n : Nat) (x : Slot) : (s.putSlot n x).slot n = x := by
  simp [State.slot, State.putSlot, VecState.slot, Map.getD]

theorem State.slot_putSlot_ne (s : State) (n k : Nat) (x : Slot) (h : k ≠ n) : (s.putSlot n x).slot k = s.slot k := by
  simp [State.slot, State.putSlot, VecState.slot, Map.getD, Map.get?_set_ne _ _ _ _ h]

end Sys2Proof.Machine
end

