-- ==== Sys2Proof/Laws/Lanes.lean ====
section
/-! SUPPORT. Laws of the lane sequencer: what decode and the lanes do with a word that meets an empty queue, and what the
completion of an entry changes. Statements about vector words cite these and never unfold the sequencer. -/

namespace Sys2Proof.Machine

/-- An empty queue makes no instruction wait. -/
@[simp] theorem willWrite_nil (rs : List SReg) : willWrite [] rs = false := rfl

@[simp] theorem entriesOf_nil : entriesOf [] = [] := rfl

/-- With no entry queued and no access waiting, no register is still to be written. -/
theorem regsDue_nil {s : State} (hq : s.me.queue = []) (hp : s.me.ord.path = []) (rs : List SReg) : regsDue s rs = false := by
  simp [regsDue, hq, hp, loadDue]

/-- An instruction whose registers are all written goes on at once. -/
theorem named_free {rs : List SReg} {s : State} (h : regsDue s rs = false) (k : State → State) :
    named rs s k = k s := by
  simp [named, afterLanes, h]

/-- An instruction that names a register still to be written waits, while that work is left to the agenda. -/
theorem named_blocked {rs : List SReg} {s : State} (h : regsDue s rs = true) (hl : s.later = true)
    (k : State → State) : named rs s k = s := by
  simp [named, afterLanes, h, hl]

/-- An instruction that waits for an empty queue goes on at once with one, and no load waiting. -/
theorem emptied_nil {s : State} (h : s.me.queue = []) (hp : s.me.ord.path.any (·.isLoad) = false) (k : State → State) :
    emptied s k = k s := by
  simp [emptied, afterLanes, queueBusy, h, hp]

/-- A fault at the PC is reported at once with an empty queue. -/
theorem faultAt_nil {f : KeptFault} {s : State} (h : s.me.queue = []) (hp : s.me.ord.path.any (·.isLoad) = false) :
    faultAt f s = raiseFault f s := by
  have hb : queueBusy s = false := by simp [queueBusy, h, hp]
  simp [faultAt, hb, emptied_nil h hp]

/-- A fault at the PC that older entries or loads hold off is kept, while these are left to the agenda. -/
theorem faultAt_kept {f : KeptFault} {s : State} (h : queueBusy s = true) (hm : s.me.ord.path.any (·.mark.isSome) = false)
    (hl : s.later = true) : faultAt f s = keepFault f s := by
  have hd : drainPicked (·.mark.isSome) s = s := drainPicked_none (by simpa using hm)
  have hb : queueBusy (keepFault f s) = true := by simpa [keepFault, hd, queueBusy] using h
  have hk : (keepFault f s).later = true := by simpa [keepFault, hd] using hl
  simp [faultAt, h, emptied, afterLanes, hb, hk]

/-- A word of a compute strand goes on. -/
theorem computeOnly_compute {i : Instr} {s : State} (h : s.me.fliven = false) (k : State → State) :
    computeOnly i s k = k s := by
  simp [computeOnly, h]

/-- A fault at the PC with an empty queue is taken at once. -/
theorem scalarTrap_nil {i : Instr} {t : Trap} {s : State} (h : s.me.queue = []) (hp : s.me.ord.path.any (·.isLoad) = false) :
    scalarTrap i t s = takeTrap 0 (encode i).toNat t s := by
  simp [scalarTrap, faultAt_nil h hp, raiseFault]

/-! Pushing. -/

/-- The state an entry finds when its word was decoded with an empty queue. -/
theorem pushEntry_queue {s : State} (h : s.me.queue = []) (e : Entry) : (pushEntry s e).me.queue = [.entry e] := by
  simp [pushEntry, h]

/-- A word is pushed and left to the lanes. -/
theorem pushWord_later {i : Instr} {mx : Bool} {s : State} (hl : s.later = true) (hd : decodeTrap s i mx = none)
    (hb : pushBusy i s = false) : pushWord i mx s = pushEntry s (entryFor s i) := by
  have hp : (pushEntry s (entryFor s i)).later = true := hl
  simp [pushWord, hd, afterLanes, hb, afterPush, hp]

/-- An entry in whose middle nothing stopped, and which has no elements singled out. -/
theorem Entry.whole_of {e : Entry} (h : e.upTo = none) (ho : e.only = none) : e.whole = e := by
  cases e; cases h; cases ho; rfl

/-- A strand that waits for no answer takes its entries with their faults. -/
theorem laneStep_unmarked {s : State} (hm : s.me.wait.mark = none) : laneStep s = laneTake s := by
  simp [laneStep, hm]

/-- One entry that ends in the lanes without a fault completes. -/
theorem laneStep_done {s u : State} {e : Entry} {rest : List QItem} {fl : Nat} (hm : s.me.wait.mark = none)
    (hq : s.me.queue = .entry e :: rest) (hu : e.upTo = none) (ho : e.only = none) (ha : groupsAsleep s e = false)
    (hl : laneEntry e s = .done u fl) : laneStep s = (finishEntry u e fl, true) := by
  simp [laneStep_unmarked hm, laneTake, hq, Entry.whole_of hu ho, ha, hl]

theorem laneStep_fault {s u : State} {e : Entry} {rest : List QItem} {t : Trap} (hm : s.me.wait.mark = none)
    (hq : s.me.queue = .entry e :: rest) (hu : e.upTo = none) (ho : e.only = none) (ha : groupsAsleep s e = false)
    (hl : laneEntry e s = .fault t u) : laneStep s = (takeTrap 1 (encode e.instr).toNat t (drainLoads u), true) := by
  simp [laneStep_unmarked hm, laneTake, hq, Entry.whole_of hu ho, ha, hl]

/-! A unit takes an entry: only the place it served last changes. -/

@[simp] theorem takenBy_key (u : Option Nat) (s : State) : (takenBy u s).key = s.key := by cases u <;> rfl
@[simp] theorem takenBy_me (u : Option Nat) (s : State) : (takenBy u s).me = s.me := by cases u <;> rfl
@[simp] theorem takenBy_others (u : Option Nat) (s : State) : (takenBy u s).others = s.others := by cases u <;> rfl
@[simp] theorem takenBy_dies (u : Option Nat) (s : State) : (takenBy u s).dies = s.dies := by cases u <;> rfl
@[simp] theorem takenBy_parts (u : Option Nat) (s : State) : (takenBy u s).parts = s.parts := by cases u <;> rfl
@[simp] theorem takenBy_gangs (u : Option Nat) (s : State) : (takenBy u s).gangs = s.gangs := by cases u <;> rfl
@[simp] theorem takenBy_apps (u : Option Nat) (s : State) : (takenBy u s).apps = s.apps := by cases u <;> rfl
@[simp] theorem takenBy_onces (u : Option Nat) (s : State) : (takenBy u s).onces = s.onces := by cases u <;> rfl
@[simp] theorem takenBy_shoots (u : Option Nat) (s : State) : (takenBy u s).shoots = s.shoots := by cases u <;> rfl
@[simp] theorem takenBy_streams (u : Option Nat) (s : State) : (takenBy u s).streams = s.streams := by cases u <;> rfl
@[simp] theorem takenBy_syncs (u : Option Nat) (s : State) : (takenBy u s).syncs = s.syncs := by cases u <;> rfl
@[simp] theorem takenBy_lineSig (u : Option Nat) (s : State) : (takenBy u s).lineSig = s.lineSig := by cases u <;> rfl
@[simp] theorem takenBy_mem (u : Option Nat) (s : State) : (takenBy u s).mem = s.mem := by cases u <;> rfl
@[simp] theorem takenBy_lostLines (u : Option Nat) (s : State) : (takenBy u s).lostLines = s.lostLines := by cases u <;> rfl
@[simp] theorem takenBy_stage (u : Option Nat) (s : State) : (takenBy u s).stage = s.stage := by cases u <;> rfl
@[simp] theorem takenBy_now (u : Option Nat) (s : State) : (takenBy u s).now = s.now := by cases u <;> rfl
@[simp] theorem takenBy_nparts (u : Option Nat) (s : State) : (takenBy u s).nparts = s.nparts := by cases u <;> rfl
@[simp] theorem takenBy_agenda (u : Option Nat) (s : State) : (takenBy u s).agenda = s.agenda := by cases u <;> rfl
@[simp] theorem takenBy_later (u : Option Nat) (s : State) : (takenBy u s).later = s.later := by cases u <;> rfl

/-! Running. -/

/-- With an empty queue the lanes have nothing to take. -/
theorem servedStep_empty {s : State} (h : s.me.queue = []) : servedStep s = (s, false) := by
  simp [servedStep, neededUnit, takenBy, laneStep, laneTake, h]

/-- The lanes stop at an empty queue, or with the strand. -/
theorem runLanes_ended {s : State} (h : s.me.queue = [] ∨ s.me.status = .stopped) (n : Nat) : runLanes n s = s := by
  rcases n with _ | n
  · rfl
  · rcases h with h | h
    · simp [runLanes, servedAhead, neededUnit, servedStep_empty h, h]
    · simp [runLanes, h]

/-- A strand is one of its core. -/
theorem queuedAt_me {s : State} : s.me.queue.length ≤ queuedAt s s.myCore := by
  simp [queuedAt, State.strands, State.myCore]

/-- Where the shared unit that the oldest entry needs, if any, comes to no other strand first, the lanes take that entry; with it the
queue is empty or the strand has stopped. -/
theorem runQueue_takes {s u : State} (hs : (s.me.status == .stopped) = false) (hq : s.me.queue ≠ []) (ha : servedAhead s = none)
    (hm : laneStep (takenBy (neededUnit s.me) s) = (u, true)) (he : u.me.queue = [] ∨ u.me.status = .stopped) : runQueue s = u := by
  obtain ⟨n, hn⟩ : ∃ n, queuedAt s s.myCore = n + 1 :=
    Nat.exists_eq_succ_of_ne_zero (Nat.pos_iff_ne_zero.mp ((List.length_pos_iff.mpr hq).trans_le queuedAt_me))
  simp [runQueue, hn, runLanes, hs, ha, servedStep, hm, runLanes_ended he]

/-- No strand is served before this one where its entry needs no shared unit, or its unit comes to none first. -/
theorem servedAhead_alone {s : State} (h : ∀ n, neededUnit s.me = some n → aheadAtUnit s n = []) : servedAhead s = none := by
  cases hu : neededUnit s.me with
  | none => simp [servedAhead, hu]
  | some n => simp [servedAhead, hu, h n hu]

/-- Whose entry a unit is in the middle of. -/
theorem unitHolder_some {s : State} {u k : Nat} : unitHolder s u = some k ↔
    ∃ slot seq t, Map.get? (s.core s.myCore).unitHeld u = some (slot, seq) ∧ s.myCore * Config.slotsPerCore + slot = k
      ∧ s.strand? k = some t ∧ neededUnit t = some u ∧ t.vcp = seq := by
  unfold unitHolder
  constructor
  · intro h
    split at h
    · cases h
    · next slot seq hg =>
      dsimp only at h
      split at h
      · next t ht =>
        split at h
        · next hc => cases h; exact ⟨slot, seq, t, hg, rfl, ht, hc⟩
        · cases h
      · cases h
  · rintro ⟨slot, seq, t, hg, rfl, ht, hn, hv⟩
    simp [hg, ht, hn, hv]

/-- With an empty queue, no unit comes to another strand first because of an entry that is pushed. -/
theorem aheadAtUnit_pushEntry {s : State} {n : Nat} (hq : s.me.queue = []) (ha : aheadAtUnit s n = []) (e : Entry) :
    aheadAtUnit (pushEntry s e) n = [] := by
  have hk : ∀ l : List Nat, ∀ k ∈ l.takeWhile (· != s.key), k ≠ s.key := by
    intro l
    induction l with
    | nil => simp
    | cons a l ih =>
      intro k hk
      by_cases h : a = s.key
      · simp [h] at hk
      · simp only [List.takeWhile_cons, bne_iff_ne, ne_eq, h, not_false_eq_true, if_true, List.mem_cons] at hk
        exact hk.elim (· ▸ h) (ih k)
  have hs : ∀ k, k ≠ s.key → (pushEntry s e).strand? k = s.strand? k := fun k h => by simp [State.strand?, pushEntry, h]
  have hu : ∀ k, k ≠ s.key → (unitHolder (pushEntry s e) n = some k ↔ unitHolder s n = some k) := fun k h => by
    rw [unitHolder_some, unitHolder_some, hs k h]
    exact Iff.rfl
  cases hp : unitHolder (pushEntry s e) n with
  | some k =>
    by_cases h : k = s.key
    · simp [aheadAtUnit, hp, show k = (pushEntry s e).key from h]
    · simp [aheadAtUnit, (hu k h).mp hp, h] at ha
  | none =>
    cases hb : unitHolder s n with
    | none =>
      simp only [aheadAtUnit, hb] at ha
      simp only [aheadAtUnit, hp]
      refine (List.filter_congr fun k hk' => ?_).trans ha
      rw [hs k (hk _ k hk')]
    | some k =>
      by_cases h : k = s.key
      · obtain ⟨_, _, t, _, _, ht, hn, _⟩ := unitHolder_some.mp hb
        have : t = s.me := by simpa [State.strand?, h, eq_comm] using ht
        simp [this, neededUnit, hq] at hn
      · simp [(hu k h).mpr hb] at hp

/-- A word decoded with an empty queue runs in the lanes at once, once its unit has come to it. -/
theorem pushWord_empty {i : Instr} {mx : Bool} {s u : State} (hl : s.later = false) (hq : s.me.queue = [])
    (hp0 : s.me.ord.path = []) (hs : s.me.status = .ready) (hd : decodeTrap s i mx = none)
    (ha : ∀ n, sharedUnit (entryFor s i) = some n → aheadAtUnit s n = [])
    (hm : laneStep (takenBy (sharedUnit (entryFor s i)) (pushEntry s (entryFor s i))) = (u, true))
    (he : u.me.queue = [] ∨ u.me.status = .stopped) : pushWord i mx s = u := by
  have hb : pushBusy i s = false := by simp [pushBusy, hq, Config.queueSize, regsDue_nil hq hp0]
  have hp : (pushEntry s (entryFor s i)).later = false := hl
  have hr : (pushEntry s (entryFor s i)).me.status = .ready := hs
  have hn : neededUnit (pushEntry s (entryFor s i)).me = sharedUnit (entryFor s i) := by
    simp [neededUnit, pushEntry_queue hq, hr]
  simp only [pushWord, hd, afterLanes, hb, afterPush, hp, Bool.not_false, if_true, Bool.false_eq_true, if_false]
  exact runQueue_takes (by rw [hr]; rfl) (by simp [pushEntry_queue hq]) (servedAhead_alone fun n h =>
    aheadAtUnit_pushEntry hq (ha n (hn ▸ h)) _) (hn ▸ hm) he

/-- An entry that names no stream and was not interrupted pops its sources and runs. -/
theorem laneEntry_popped {s b a : State} {e : Entry} {held : Option Trap} (hv : s.me.v.vstart = 0)
    (hh : courseHeader e = none) (hb : bindingTrap s.me.v e = none) (hp : popAll s e = .ready b a held) :
    laneEntry e s = (laneBody 0 e held a).unpop b e := by
  simp [laneEntry, hv, hh, lanePopped, hb, hp]

/-- With no enabled flag raised the entry completes. -/
theorem finishEntry_untrapped {s : State} {e : Entry} {fl : Nat} (hp : s.me.v.fppend = false)
    (ht : trapsFp s.me.fcsr s.me.fd fl = false) : finishEntry s e fl = completeEntry s e fl := by
  simp [finishEntry, hp, ht]

/-- What the completion of the only entry leaves. -/
theorem completeEntry_single {s : State} {e f : Entry} {fl : Nat} (hq : s.me.queue = [.entry f]) :
    completeEntry s e fl = { s with me := { s.me with
      fcsr := orFlags s.me.fcsr fl
      queue := []
      v := { s.me.v with vstart := 0, vdone := 0, fppend := false }
      wait := if sleepEntry e.instr then {} else { s.me.wait with laneSince := none } } } := by
  simp [completeEntry, State.modMe, hq, settleMarkers]

/-- No flag raised leaves FCSR alone. -/
@[simp] theorem orFlags_zero (x : Word) : orFlags x 0 = x := by simp [orFlags]

@[simp] theorem trapsFp_zero (x : Word) (fd : Bool) : trapsFp x fd 0 = false := by
  simp [trapsFp, bitsOf]

/-- Without a bound stream slot an entry pops nothing. -/
theorem popAll_unbound {s : State} {e : Entry} (h : popSlots s.me.v e = []) : popAll s e = .ready s s none := by
  have hn : ∀ l : List Nat, heldTrap s.me.v [] l = none := by
    intro l
    induction l with
    | nil => rfl
    | cons x l ih => simp [heldTrap]
  simp [popAll, h, hn]

theorem boundBy_none {v : VecState} (h : ∀ q, (v.stream q).bound = false) (n : Nat) : v.boundBy n = none := by
  rw [VecState.boundBy, List.find?_eq_none]
  intro q _ hc
  have hb : (v.streams[q]?.getD {}).bound = true := (Bool.and_eq_true _ _ ▸ hc).1
  exact Bool.false_ne_true ((h q).symm.trans hb)

theorem popSlots_unbound {v : VecState} (h : ∀ q, (v.stream q).bound = false) (e : Entry) : popSlots v e = [] := by
  have : ((popSources e.instr).filterMap fun r => v.boundBy (e.wb + r.toNat)) = [] := by
    rw [List.filterMap_eq_nil_iff]
    intro r _
    exact boundBy_none h _
  simp [popSlots, this, unionList]

theorem bindingTrap_unbound {v : VecState} (h : ∀ q, (v.stream q).bound = false) (e : Entry) : bindingTrap v e = none := by
  have h1 : ((unboundFields e.instr).any fun f => (v.boundBy (e.wb + f)).isSome) = false := by
    simp [boundBy_none h]
  simp [bindingTrap, h1, popSlots_unbound h]

end Sys2Proof.Machine
end

