-- ==== Sys2Proof/Laws/Memory.lean ====
section
/-! SUPPORT. Laws of the memory table: what a byte reads as after a write, that a write keeps the canonical form, and that
little-endian bytes give their number back. -/

namespace Sys2Proof.Machine

/-! The canonical form. -/

/-- The canonical form as a statement about the list: addresses strictly rising, no blank byte. -/
theorem Mem.wf_iff (m : Mem) :
    m.wf = true ↔ m.Pairwise (fun c d => c.1 < d.1) ∧ ∀ c ∈ m, c.2 ≠ Config.blankByte := by
  induction m with
  | nil => simp [Mem.wf]
  | cons c m ih =>
    cases m with
    | nil => simp [Mem.wf]
    | cons d rest =>
      simp only [Mem.wf, Bool.and_eq_true, bne_iff_ne, decide_eq_true_eq, ih]
      constructor
      · rintro ⟨⟨hc, hlt⟩, hp, hb⟩
        refine ⟨List.pairwise_cons.mpr ⟨fun e he => ?_, hp⟩, fun e he => ?_⟩
        · rcases List.mem_cons.mp he with rfl | he
          · exact hlt
          · exact hlt.trans ((List.pairwise_cons.mp hp).1 e he)
        · rcases List.mem_cons.mp he with rfl | he
          · exact hc
          · exact hb e he
      · rintro ⟨hp, hb⟩
        have h := List.pairwise_cons.mp hp
        exact ⟨⟨hb c (by simp), h.1 d (by simp)⟩, h.2, fun e he => hb e (List.mem_cons_of_mem _ he)⟩

@[simp] theorem Mem.wf_nil : Mem.wf [] = true := rfl

/-- Leaving cells out keeps the form. -/
theorem Mem.wf_filter {m : Mem} (h : m.wf = true) (p : Host.Cell → Bool) : Mem.wf (m.filter p) = true := by
  rw [Mem.wf_iff] at h ⊢
  exact ⟨h.1.sublist List.filter_sublist, fun c hc => h.2 c (List.mem_of_mem_filter hc)⟩

/-- The cells of a run lie in the run. -/
theorem mem_cellsOf {a : Nat} {bs : List Byte} {c : Host.Cell} (h : c ∈ cellsOf a bs) : a ≤ c.1 ∧ c.1 < a + bs.length := by
  induction bs generalizing a with
  | nil => simp [cellsOf] at h
  | cons b bs ih =>
    simp only [cellsOf] at h
    split at h
    · have := ih h; simp only [List.length_cons]; omega
    · rcases List.mem_cons.mp h with rfl | h
      · simp
      · have := ih h; simp only [List.length_cons]; omega

theorem cellsOf_wf (a : Nat) (bs : List Byte) : Mem.wf (cellsOf a bs) = true := by
  induction bs generalizing a with
  | nil => rfl
  | cons b bs ih =>
    simp only [cellsOf]
    split
    · exact ih _
    · next hb =>
      have h := (Mem.wf_iff _).mp (ih (a + 1))
      refine (Mem.wf_iff _).mpr ⟨List.pairwise_cons.mpr ⟨fun c hc => ?_, h.1⟩, fun c hc => ?_⟩
      · have := mem_cellsOf hc; omega
      · rcases List.mem_cons.mp hc with rfl | hc
        · exact hb
        · exact h.2 c hc

/-- A write keeps the canonical form. -/
theorem Mem.wf_write {m : Mem} (h : m.wf = true) (a : Nat) (bs : List Byte) : Mem.wf (m.write a bs) = true := by
  have hm := (Mem.wf_iff m).mp h
  have hw := (Mem.wf_iff _).mp (cellsOf_wf a bs)
  rw [Mem.wf_iff]
  refine ⟨?_, ?_⟩
  · unfold Mem.write
    refine List.pairwise_append.mpr ⟨List.pairwise_append.mpr ⟨hm.1.sublist List.filter_sublist, hw.1, ?_⟩,
      hm.1.sublist List.filter_sublist, ?_⟩
    · intro c hc d hd
      have h1 := (List.mem_filter.mp hc).2
      have h2 := mem_cellsOf hd
      simp only [decide_eq_true_eq] at h1
      omega
    · intro c hc d hd
      have h2 := (List.mem_filter.mp hd).2
      simp only [decide_eq_true_eq] at h2
      rcases List.mem_append.mp hc with hc | hc
      · have h1 := (List.mem_filter.mp hc).2
        simp only [decide_eq_true_eq] at h1
        omega
      · have h1 := mem_cellsOf hc
        omega
  · intro c hc
    unfold Mem.write at hc
    rcases List.mem_append.mp hc with hc | hc
    · rcases List.mem_append.mp hc with hc | hc
      · exact hm.2 c (List.mem_of_mem_filter hc)
      · exact hw.2 c hc
    · exact hm.2 c (List.mem_of_mem_filter hc)

/-! Reading one byte. -/

/-- An address that no cell names reads as the blank byte. -/
theorem Mem.byte_of_not_listed {m : Mem} {a : Nat} (h : ∀ c ∈ m, c.1 ≠ a) : m.byte a = Config.blankByte := by
  induction m with
  | nil => rfl
  | cons c m ih =>
    obtain ⟨b, v⟩ := c
    simp only [Mem.byte]
    rw [if_neg (h (b, v) (by simp))]
    exact ih fun c hc => h c (List.mem_cons_of_mem _ hc)

theorem Mem.byte_append_left {l r : Mem} {a : Nat} (h : ∀ c ∈ r, c.1 ≠ a) : Mem.byte (l ++ r) a = Mem.byte l a := by
  induction l with
  | nil => simpa [Mem.byte] using Mem.byte_of_not_listed h
  | cons c l ih =>
    obtain ⟨b, v⟩ := c
    simp only [List.cons_append, Mem.byte, ih]

theorem Mem.byte_append_right {l r : Mem} {a : Nat} (h : ∀ c ∈ l, c.1 ≠ a) : Mem.byte (l ++ r) a = Mem.byte r a := by
  induction l with
  | nil => rfl
  | cons c l ih =>
    obtain ⟨b, v⟩ := c
    simp only [List.cons_append, Mem.byte]
    rw [if_neg (h (b, v) (by simp))]
    exact ih fun c hc => h c (List.mem_cons_of_mem _ hc)

/-- A selection by address keeps the bytes at the addresses it keeps. -/
theorem Mem.byte_filter_keep {m : Mem} {p : Nat → Bool} {a : Nat} (h : p a = true) :
    Mem.byte (m.filter fun c => p c.1) a = Mem.byte m a := by
  induction m with
  | nil => rfl
  | cons c m ih =>
    obtain ⟨b, v⟩ := c
    by_cases hb : p b = true
    · simp only [List.filter_cons, hb, if_true, Mem.byte, ih]
    · have hne : b ≠ a := fun e => hb (e ▸ h)
      simp only [List.filter_cons, hb, Mem.byte, if_neg hne]
      exact ih

theorem byte_cellsOf (a : Nat) (bs : List Byte) (b : Nat) :
    Mem.byte (cellsOf a bs) b = if h : a ≤ b ∧ b < a + bs.length then bs[b - a]'(by omega) else Config.blankByte := by
  induction bs generalizing a with
  | nil => simp [cellsOf, Mem.byte]
  | cons x bs ih =>
    have later : Mem.byte (cellsOf (a + 1) bs) a = Config.blankByte :=
      Mem.byte_of_not_listed fun c hc => by have := mem_cellsOf hc; omega
    by_cases hab : b = a
    · subst hab
      simp only [cellsOf]
      split
      · next hx => simp [later, hx]
      · simp [Mem.byte]
    · have step : Mem.byte (cellsOf a (x :: bs)) b = Mem.byte (cellsOf (a + 1) bs) b := by
        simp only [cellsOf]
        split
        · rfl
        · simp only [Mem.byte, if_neg (Ne.symm hab)]
      rw [step, ih]
      by_cases h : a + 1 ≤ b ∧ b < a + 1 + bs.length
      · have h' : a ≤ b ∧ b < a + (x :: bs).length := by simp only [List.length_cons]; omega
        rw [dif_pos h, dif_pos h']
        have : b - a = b - (a + 1) + 1 := by omega
        simp only [this, List.getElem_cons_succ]
      · have h' : ¬(a ≤ b ∧ b < a + (x :: bs).length) := by simp only [List.length_cons]; omega
        rw [dif_neg h, dif_neg h']

/-- What a byte reads as after a write: the written byte inside the run, the old byte outside it. -/
theorem Mem.byte_write (m : Mem) (a : Nat) (bs : List Byte) (b : Nat) :
    (m.write a bs).byte b = if h : a ≤ b ∧ b < a + bs.length then bs[b - a]'(by omega) else m.byte b := by
  unfold Mem.write
  by_cases hlt : b < a
  · rw [dif_neg (by omega), Mem.byte_append_left, Mem.byte_append_left, Mem.byte_filter_keep (p := fun x => decide (x < a)) (by simpa using hlt)]
    · intro c hc; have := mem_cellsOf hc; omega
    · intro c hc; have := (List.mem_filter.mp hc).2; simp only [decide_eq_true_eq] at this; omega
  · by_cases hge : a + bs.length ≤ b
    · rw [dif_neg (by omega), Mem.byte_append_right,
        Mem.byte_filter_keep (p := fun x => decide (a + bs.length ≤ x)) (by simpa using hge)]
      intro c hc
      rcases List.mem_append.mp hc with hc | hc
      · have := (List.mem_filter.mp hc).2; simp only [decide_eq_true_eq] at this; omega
      · have := mem_cellsOf hc; omega
    · rw [Mem.byte_append_left, Mem.byte_append_right, byte_cellsOf]
      · rw [dif_pos (by omega), dif_pos (by omega)]
      · intro c hc; have := (List.mem_filter.mp hc).2; simp only [decide_eq_true_eq] at this; omega
      · intro c hc; have := (List.mem_filter.mp hc).2; simp only [decide_eq_true_eq] at this; omega

/-- A write leaves every byte outside its run alone. -/
theorem Mem.byte_write_outside {m : Mem} {a : Nat} {bs : List Byte} {b : Nat} (h : b < a ∨ a + bs.length ≤ b) :
    (m.write a bs).byte b = m.byte b := by
  rw [Mem.byte_write, dif_neg (by omega)]

/-! Reading a run. -/

theorem Mem.read_eq (m : Mem) (a n : Nat) : m.read a n = (List.range n).map fun i => m.byte (a + i) := by
  unfold Mem.read
  refine List.map_congr_left fun i hi => ?_
  have hi := List.mem_range.mp hi
  have h := Mem.byte_filter_keep (m := m) (p := fun x => decide (a ≤ x) && decide (x < a + n)) (a := a + i)
    (by simp [hi])
  exact h

@[simp] theorem Mem.length_read (m : Mem) (a n : Nat) : (m.read a n).length = n := by simp [Mem.read_eq]

/-- Reading what was written gives it back. -/
theorem Mem.read_write_same (m : Mem) (a : Nat) (bs : List Byte) : (m.write a bs).read a bs.length = bs := by
  rw [Mem.read_eq]
  refine List.ext_getElem (by simp) fun i h1 h2 => ?_
  simp only [List.getElem_map, List.getElem_range]
  rw [Mem.byte_write, dif_pos (by omega)]
  simp

/-- A write leaves every run apart from it alone. -/
theorem Mem.read_write_apart {m : Mem} {a b n : Nat} {bs : List Byte} (h : b + n ≤ a ∨ a + bs.length ≤ b) :
    (m.write a bs).read b n = m.read b n := by
  rw [Mem.read_eq, Mem.read_eq]
  refine List.map_congr_left fun i hi => ?_
  have hi := List.mem_range.mp hi
  exact Mem.byte_write_outside (by omega)

/-! Little-endian bytes. -/

@[simp] theorem length_bytesOfNat (n x : Nat) : (bytesOfNat n x).length = n := by
  induction n generalizing x with
  | zero => rfl
  | succ n ih => simp [bytesOfNat, ih]

theorem natOfBytes_bytesOfNat (n x : Nat) : natOfBytes (bytesOfNat n x) = x % 256 ^ n := by
  induction n generalizing x with
  | zero => simp [bytesOfNat, natOfBytes, Nat.mod_one]
  | succ n ih =>
    have h : (BitVec.ofNat 8 x).toNat = x % 256 := by rw [BitVec.toNat_ofNat]
    rw [bytesOfNat, natOfBytes, ih, h, Nat.pow_succ', Nat.mod_mul]

theorem natOfBytes_lt (bs : List Byte) : natOfBytes bs < 256 ^ bs.length := by
  induction bs with
  | nil => simp [natOfBytes]
  | cons b bs ih =>
    simp only [natOfBytes, List.length_cons, Nat.pow_succ']
    have := b.isLt
    omega

/-- A number written little-endian and read back. -/
theorem Mem.read_bytesOfNat (m : Mem) (a n x : Nat) : natOfBytes ((m.write a (bytesOfNat n x)).read a n) = x % 256 ^ n := by
  have h := Mem.read_write_same m a (bytesOfNat n x)
  rw [length_bytesOfNat] at h
  rw [h, natOfBytes_bytesOfNat]

/-! Memory at reset. -/

theorem reset_mem_wf : State.reset.mem.wf = true := rfl

end Sys2Proof.Machine
end

