-- ==== Sys2Proof/Laws/Slots.lean ====
section
/-! SUPPORT. Laws of packed elements: what an element reads as after elements were written, for slots and masks, and what
`collect` gathers. -/

namespace Sys2Proof.Machine

/-! One element. -/

theorem testBit_elemAt (x w e j : Nat) : (elemAt x w e).testBit j = (decide (j < w) && x.testBit (w * e + j)) := by
  rw [elemAt, Nat.testBit_mod_two_pow, Nat.testBit_div_two_pow, Nat.add_comm j]

/-- A packed number cut around one element. -/
theorem setElem_eq (x w e v : Nat) :
    setElem x w e v = 2 ^ (w * e) * (2 ^ w * (x / 2 ^ (w * e + w)) + v % 2 ^ w) + x % 2 ^ (w * e) := by
  have h1 : x = 2 ^ (w * e) * (x / 2 ^ (w * e)) + x % 2 ^ (w * e) := (Nat.div_add_mod _ _).symm
  have h2 : x / 2 ^ (w * e) = 2 ^ w * (x / 2 ^ (w * e) / 2 ^ w) + x / 2 ^ (w * e) % 2 ^ w := (Nat.div_add_mod _ _).symm
  have h3 : x / 2 ^ (w * e) / 2 ^ w = x / 2 ^ (w * e + w) := by rw [Nat.div_div_eq_div_mul, ← Nat.pow_add]
  unfold setElem elemAt
  rw [h3] at h2
  generalize x / 2 ^ (w * e + w) = hi at *
  generalize x / 2 ^ (w * e) % 2 ^ w = mid at *
  generalize x % 2 ^ (w * e) = lo at *
  rw [h2] at h1
  have h4 : x = 2 ^ (w * e) * (2 ^ w * hi) + lo + mid * 2 ^ (w * e) := by rw [h1]; ring
  have h5 : x - mid * 2 ^ (w * e) = 2 ^ (w * e) * (2 ^ w * hi) + lo := by omega
  rw [h5]
  ring

theorem testBit_setElem (x w e v n : Nat) :
    (setElem x w e v).testBit n = if w * e ≤ n ∧ n < w * e + w then v.testBit (n - w * e) else x.testBit n := by
  have hlo : x % 2 ^ (w * e) < 2 ^ (w * e) := Nat.mod_lt _ (by positivity)
  have hv : v % 2 ^ w < 2 ^ w := Nat.mod_lt _ (by positivity)
  rw [setElem_eq, Nat.testBit_two_pow_mul_add _ hlo]
  by_cases h1 : n < w * e
  · rw [if_pos h1, if_neg (by omega), Nat.testBit_mod_two_pow]
    simp [h1]
  · rw [if_neg h1, Nat.testBit_two_pow_mul_add _ hv]
    by_cases h2 : n - w * e < w
    · rw [if_pos h2, if_pos (by omega), Nat.testBit_mod_two_pow]
      simp [h2]
    · rw [if_neg h2, if_neg (by omega), Nat.testBit_div_two_pow]
      congr 1
      omega

/-- An element after one element was written. -/
theorem elemAt_setElem (x w e v k : Nat) : elemAt (setElem x w e v) w k = if k = e then v % 2 ^ w else elemAt x w k := by
  apply Nat.eq_of_testBit_eq
  intro j
  by_cases hk : k = e
  · subst hk
    rw [if_pos rfl, testBit_elemAt, testBit_setElem, Nat.testBit_mod_two_pow]
    by_cases hj : j < w
    · rw [if_pos (by omega)]
      simp [hj]
    · simp [hj]
  · rw [if_neg hk, testBit_elemAt, testBit_elemAt, testBit_setElem]
    by_cases hj : j < w
    · have : ¬(w * e ≤ w * k + j ∧ w * k + j < w * e + w) := by
        rintro ⟨h1, h2⟩
        rcases Nat.lt_or_gt_of_ne hk with h | h
        · have := Nat.mul_le_mul_left w (Nat.succ_le_of_lt h)
          rw [Nat.succ_eq_add_one, Nat.mul_add] at this
          omega
        · have := Nat.mul_le_mul_left w (Nat.succ_le_of_lt h)
          rw [Nat.succ_eq_add_one, Nat.mul_add] at this
          omega
      rw [if_neg this]
    · simp [hj]

/-! Many elements. -/

/-- An element after the elements of a list were written, each with its value. -/
theorem elemAt_foldl_setElem (l : List Nat) (f : Nat → Nat) (w x k : Nat) :
    elemAt ((l.map fun i => (i, f i)).foldl (fun acc p => setElem acc w p.1 p.2) x) w k
      = if k ∈ l then f k % 2 ^ w else elemAt x w k := by
  induction l generalizing x with
  | nil => simp
  | cons i l ih =>
    rw [List.map_cons, List.foldl_cons, ih]
    by_cases hl : k ∈ l
    · simp [hl]
    · rw [if_neg hl, elemAt_setElem]
      by_cases hi : k = i
      · simp [hi]
      · simp [hi, hl]

/-- Cutting a number to the size of a register keeps the elements that lie in it. -/
theorem elemAt_mod (x n w k : Nat) (h : w * k + w ≤ n) : elemAt (x % 2 ^ n) w k = elemAt x w k := by
  apply Nat.eq_of_testBit_eq
  intro j
  rw [testBit_elemAt, testBit_elemAt, Nat.testBit_mod_two_pow]
  by_cases hj : j < w
  · have : w * k + j < n := by omega
    simp [this]
  · simp [hj]

/-- An element of a slot after the elements of a list were written. -/
theorem Slot.elem_write (s : Slot) (w : Nat) (l : List Nat) (f : Nat → Nat) (k : Nat) (h : w * k + w ≤ 32768) :
    (s.write w (l.map fun i => (i, f i))).elem w k = if k ∈ l then f k % 2 ^ w else s.elem w k := by
  unfold Slot.elem Slot.write
  rw [BitVec.toNat_ofNat, elemAt_mod _ _ _ _ h, elemAt_foldl_setElem]

/-- The results and the flags that `collect` gathers. -/
theorem collect_fst (f : Nat → Res) (l : List Nat) : (collect f l).1 = l.map fun i => (i, (f i).1) := by
  induction l with
  | nil => rfl
  | cons i l ih => simp [collect, ih]

theorem collect_snd_zero {f : Nat → Res} {l : List Nat} (h : ∀ i, (f i).2 = 0) : (collect f l).2 = 0 := by
  induction l with
  | nil => rfl
  | cons i l ih => simp [collect, ih, h]

/-- The flags gathered: a bit is set if some element sets it. -/
theorem testBit_collect_snd (f : Nat → Res) (l : List Nat) (j : Nat) :
    (collect f l).2.testBit j = l.any fun i => (f i).2.testBit j := by
  induction l with
  | nil => simp [collect]
  | cons i l ih => simp [collect, ih, Nat.testBit_or]

/-- The governed elements (02 R16). -/
theorem Ctx.mem_governed (c : Ctx) (f : VFile) (m : MReg) (i : Nat) :
    i ∈ c.governed f m ↔ i < c.hi ∧ c.lo ≤ i ∧ (f.mask m).testBit i = true := by
  simp [Ctx.governed]

theorem Ctx.mem_governedAll (c : Ctx) (f : VFile) (m : MReg) (i : Nat) :
    i ∈ c.governedAll f m ↔ i < c.vl ∧ (f.mask m).testBit i = true := by
  simp [Ctx.governedAll]

end Sys2Proof.Machine
end

