-- ==== Sys2Proof/Tests/Slice0.lean ====
section
/-! SUPPORT. Tests: ill-formed terms that are refused, words of every row of the opcode table written out from the encodings of
10_encoding, refused words, single steps, and for each statement of the certificate a state and operands that meet its
hypotheses. -/

namespace Sys2Proof.Tests

set_option Elab.async false

open Sys2Proof.Machine

/-! Well-formedness (10_encoding R160 to R171): each check refuses a term. -/

/-- R160 R214 R216: a slide by a vector or by 64, an exchange by a vector or by a distance that is no power of two. -/
theorem test_wf_offsets :
    (Instr.vslideup 0 1 2 (.v 3)).wf = false ∧ (Instr.vslidedn 0 1 2 (.i 64)).wf = false ∧
    (Instr.vslideup 0 1 2 (.i 63)).wf = true ∧ (Instr.vxch 0 1 2 (.v 3)).wf = false ∧ (Instr.vxch 0 1 2 (.i 3)).wf = false ∧
    (Instr.vxch 0 1 2 (.i 32)).wf = true := by decide

/-- R57 R162 R170: tags that a conversion, a load, a drain, a tile or a stream does not take. -/
theorem test_wf_tags :
    (Instr.vcvt 0 1 2 .raw 0 false).wf = false ∧ (Instr.vcvt 0 1 2 .f32 0 true).wf = false ∧
    (Instr.vcvt 0 1 2 .e5m2 0 true).wf = true ∧ (Instr.vldx 0 1 2 3 .e2m1).wf = false ∧ (Instr.vldb 0 1 2 3 .e2m1).wf = false ∧
    (Instr.mdrain 1 2 false .i16).wf = false ∧ (Instr.mdrain 1 2 true .i32).wf = false ∧ (Instr.tset 0 .f32 2).wf = false ∧
    (Instr.sbind 1 2 .e5m2 0).wf = false := by decide

/-- R162 R165 R166: pairs that begin at s63, an odd tile of a pair, orders that do not suit, steps 4 of R190. -/
theorem test_wf_pairs_and_orders :
    (Instr.vldb 0 1 63 3 .i8).wf = false ∧ (Instr.hloade 1 63 2).wf = false ∧ (Instr.amocas 1 2 63 .rlx .core).wf = false ∧
    (Instr.propose 63 1 2 .core).wf = false ∧ (Instr.oread 63 1 .core).wf = false ∧ (Instr.hstat 63 1).wf = false ∧
    (Instr.frqpop 63 1).wf = false ∧ (Instr.mrows 0 3 1 2).wf = false ∧ (Instr.ldo 1 2 .rel .core).wf = false ∧
    (Instr.sto 1 2 .acq .core).wf = false ∧ (Instr.ldow 1 2 .ar .core).wf = false ∧ (Instr.stow 1 2 .ar .core).wf = false ∧
    (Instr.fence .rlx .core).wf = false ∧ (Instr.strip 61 2 0 0).wf = false ∧ (Instr.strip 1 0 4 0).wf = false := by decide

/-- R166 R41 R308: literals and register numbers out of range. -/
theorem test_wf_literals :
    (Instr.gate 1024).wf = false ∧ (Instr.window 3).wf = false ∧ (Instr.valloc 0).wf = false ∧ (Instr.valloc 11).wf = false ∧
    (Instr.vshrink 11).wf = false ∧ (Instr.cdrain 8).wf = false ∧ (Instr.mfc 1 0x007).wf = false ∧ (Instr.mtc 1 0x012).wf = false ∧
    (Instr.mfs 1 0x11C).wf = false ∧ (Instr.mts 1 0x113).wf = false := by decide

/-- The steps of the part that have no word are encoded by none. -/
theorem test_wf_steps :
    (Instr.powerGood true).wf = false ∧ (Instr.unallocatedEncoding 0).wf = false ∧ (Instr.lineEviction 0 0).wf = false := by decide

/-- R165: a smoke test of terms that are accepted. -/
theorem test_wf_accepts :
    (Instr.amocas 1 2 62 .ar .system).wf = true ∧ (Instr.strip 60 2 63 1023).wf = true ∧ (Instr.mts 1 0x11B).wf = true ∧
    (Instr.mrows 7 6 127 63).wf = true := by decide

/-! Decoding: one word of every row, with operands that differ, written out from the fields of R157 to R170. -/

/-- R160, OP 0x00 to 0x11. -/
theorem test_decode_integer_vector :
    decode 0x00B4F2B6 = .ok (.vadd 5 0x53 0x65 (.v 54)) ∧ decode 0x05B4F2B6 = .ok (.vsub 5 0x53 0x65 (.s 54)) ∧
    decode 0x0AB4F2B6 = .ok (.vmul 5 0x53 0x65 (.i 54)) ∧ decode 0x0CB4F2B6 = .ok (.vmulh 5 0x53 0x65 (.v 54)) ∧
    decode 0x11B4F2B6 = .ok (.vmulhn 5 0x53 0x65 (.s 54)) ∧ decode 0x16B4F2B6 = .ok (.vmacc 5 0x53 0x65 (.i 54)) ∧
    decode 0x18B4F2B6 = .ok (.vmin 5 0x53 0x65 (.v 54)) ∧ decode 0x1DB4F2B6 = .ok (.vmax 5 0x53 0x65 (.s 54)) ∧
    decode 0x22B4F2B6 = .ok (.vminn 5 0x53 0x65 (.i 54)) ∧ decode 0x24B4F2B6 = .ok (.vmaxn 5 0x53 0x65 (.v 54)) ∧
    decode 0x29B4F2B6 = .ok (.vand 5 0x53 0x65 (.s 54)) ∧ decode 0x2EB4F2B6 = .ok (.vor 5 0x53 0x65 (.i 54)) ∧
    decode 0x30B4F2B6 = .ok (.vxor 5 0x53 0x65 (.v 54)) ∧ decode 0x35B4F2B6 = .ok (.vshl 5 0x53 0x65 (.s 54)) ∧
    decode 0x3AB4F2B6 = .ok (.vshr 5 0x53 0x65 (.i 54)) ∧ decode 0x3CB4F2B6 = .ok (.vsar 5 0x53 0x65 (.v 54)) ∧
    decode 0x41B4F2B6 = .ok (.vadds 5 0x53 0x65 (.s 54)) ∧ decode 0x46B4F2B6 = .ok (.vsubs 5 0x53 0x65 (.i 54)) :=
  ⟨rfl, rfl, rfl, rfl, rfl, rfl, rfl, rfl, rfl, rfl, rfl, rfl, rfl, rfl, rfl, rfl, rfl, rfl⟩

/-- R160, OP 0x12 to 0x17. -/
theorem test_decode_compare :
    decode 0x48A0F2B6 = .ok (.vseq 5 3 0x65 (.v 54)) ∧ decode 0x4DA0F2B6 = .ok (.vsne 5 3 0x65 (.s 54)) ∧
    decode 0x52A0F2B6 = .ok (.vslt 5 3 0x65 (.i 54)) ∧ decode 0x54A0F2B6 = .ok (.vsle 5 3 0x65 (.v 54)) ∧
    decode 0x59A0F2B6 = .ok (.vsltn 5 3 0x65 (.s 54)) ∧ decode 0x5EA0F2B6 = .ok (.vslen 5 3 0x65 (.i 54)) :=
  ⟨rfl, rfl, rfl, rfl, rfl, rfl⟩

/-- R160, OP 0x18 to 0x22. -/
theorem test_decode_float_vector :
    decode 0x60B4F2B6 = .ok (.vfadd 5 0x53 0x65 (.v 54)) ∧ decode 0x65B4F2B6 = .ok (.vfsub 5 0x53 0x65 (.s 54)) ∧
    decode 0x6AB4F2B6 = .ok (.vfmul 5 0x53 0x65 (.i 54)) ∧ decode 0x6CB4F2B6 = .ok (.vfma 5 0x53 0x65 (.v 54)) ∧
    decode 0x71B4F2B6 = .ok (.vfms 5 0x53 0x65 (.s 54)) ∧ decode 0x76B4F2B6 = .ok (.vfdiv 5 0x53 0x65 (.i 54)) ∧
    decode 0x78B4F2B6 = .ok (.vfmin 5 0x53 0x65 (.v 54)) ∧ decode 0x7DB4F2B6 = .ok (.vfmax 5 0x53 0x65 (.s 54)) ∧
    decode 0x82A0F2B6 = .ok (.vfseq 5 3 0x65 (.i 54)) ∧ decode 0x84A0F2B6 = .ok (.vfslt 5 3 0x65 (.v 54)) ∧
    decode 0x89A0F2B6 = .ok (.vfsle 5 3 0x65 (.s 54)) :=
  ⟨rfl, rfl, rfl, rfl, rfl, rfl, rfl, rfl, rfl, rfl, rfl⟩

/-- R160, OP 0x23 to 0x27. -/
theorem test_decode_moving :
    decode 0x8EB4F2B6 = .ok (.vmerge 5 0x53 0x65 (.i 54)) ∧ decode 0x92B4F2A5 = .ok (.vslideup 5 0x53 0x65 (.i 37)) ∧
    decode 0x95B4F2A9 = .ok (.vslidedn 5 0x53 0x65 (.s 41)) ∧ decode 0x98B4F2B6 = .ok (.vperm 5 0x53 0x65 54) ∧
    decode 0x9EB4F290 = .ok (.vxch 5 0x53 0x65 (.i 16)) :=
  ⟨rfl, rfl, rfl, rfl, rfl⟩

/-- R160, FM 11 under OP 0x00. -/
theorem test_decode_unary :
    decode 0x03B4F280 = .ok (.vmov 5 0x53 0x65) ∧ decode 0x03B4F281 = .ok (.vneg 5 0x53 0x65) ∧
    decode 0x03B4F282 = .ok (.vabs 5 0x53 0x65) ∧ decode 0x03B4F283 = .ok (.vnot 5 0x53 0x65) ∧
    decode 0x03B4F284 = .ok (.vclz 5 0x53 0x65) ∧ decode 0x03B4F285 = .ok (.vpopce 5 0x53 0x65) ∧
    decode 0x03B4C006 = .ok (.viota 5 0x53) ∧ decode 0x0314F29A = .ok (.vtag 0x53 0x65 .e4m3) :=
  ⟨rfl, rfl, rfl, rfl, rfl, rfl, rfl, rfl⟩

/-- R160, FM 11 under OP 0x18 and 0x23. -/
theorem test_decode_float_unary :
    decode 0x63B4F280 = .ok (.vfneg 5 0x53 0x65) ∧ decode 0x63B4F281 = .ok (.vfabs 5 0x53 0x65) ∧
    decode 0x63B4F282 = .ok (.vfsqrt 5 0x53 0x65) ∧ decode 0x63B4F283 = .ok (.vfrcp 5 0x53 0x65) ∧
    decode 0x63B4F284 = .ok (.vfrsq 5 0x53 0x65) ∧ decode 0x63B4F285 = .ok (.vfexp2 5 0x53 0x65) ∧
    decode 0x63B4F286 = .ok (.vfclass 5 0x53 0x65) ∧ decode 0x8FB4F2C5 = .ok (.vcvt 5 0x53 0x65 .f16 2 true) :=
  ⟨rfl, rfl, rfl, rfl, rfl, rfl, rfl, rfl⟩

/-- R160, FM 11 under OP 0x26. -/
theorem test_decode_reduction :
    decode 0x9BA6F280 = .ok (.vredsum 5 27 0x65) ∧ decode 0x9BA6F281 = .ok (.vredmax 5 27 0x65) ∧
    decode 0x9BA6F282 = .ok (.vredmin 5 27 0x65) ∧ decode 0x9BA6F283 = .ok (.vredmaxn 5 27 0x65) ∧
    decode 0x9BA6F284 = .ok (.vredminn 5 27 0x65) ∧ decode 0x9BA6F285 = .ok (.vredfsum 5 27 0x65) ∧
    decode 0x9BA6F286 = .ok (.vredfmax 5 27 0x65) ∧ decode 0x9BA6F287 = .ok (.vredfmin 5 27 0x65) ∧
    decode 0x9BA6C308 = .ok (.vpopc 5 27 6) ∧ decode 0x9BA6C309 = .ok (.vfirst 5 27 6) :=
  ⟨rfl, rfl, rfl, rfl, rfl, rfl, rfl, rfl, rfl, rfl⟩

/-- R160, FM 11 under OP 0x0A. -/
theorem test_decode_mask :
    decode 0x2BA0C304 = .ok (.mand 5 3 6 4) ∧ decode 0x2BA0C30C = .ok (.mor 5 3 6 4) ∧ decode 0x2BA0C314 = .ok (.mxor 5 3 6 4) ∧
    decode 0x2BA0C31C = .ok (.mandn 5 3 6 4) ∧ decode 0x2BA0C320 = .ok (.mnot 5 3 6) ∧ decode 0x2BA0C028 = .ok (.mset 5 3) ∧
    decode 0x2BA0C030 = .ok (.mclr 5 3) ∧ decode 0x2BA0C338 = .ok (.mmov 5 3 6) :=
  ⟨rfl, rfl, rfl, rfl, rfl, rfl, rfl, rfl⟩

/-- R160, FM 11 under OP 0x0B. -/
theorem test_decode_scalar_move :
    decode 0x2FB4DA80 = .ok (.vsplat 5 0x53 53) ∧ decode 0x2FA6F281 = .ok (.vmovs 5 27 0x65) ∧
    decode 0x2FB4DA82 = .ok (.vins 5 0x53 53) :=
  ⟨rfl, rfl, rfl⟩

/-- R157, OP 0x28 to 0x2D. -/
theorem test_decode_vector_memory :
    decode 0xA2E3D66F = .ok (.vld 5 0x63 53 38 .e2m1 true) ∧ decode 0xA6E3D661 = .ok (.vst 5 0x63 53 38 true) ∧
    decode 0xAAE3D5B2 = .ok (.vldx 5 0x63 53 54 .i32) ∧ decode 0xAEE3D5B0 = .ok (.vstx 5 0x63 53 54) ∧
    decode 0xB2E3B1B6 = .ok (.vldb 5 0x63 44 54 .e4m3) ∧ decode 0xB6E3D5B4 = .ok (.vredm 5 0x63 53 54 .maxn) :=
  ⟨rfl, rfl, rfl, rfl, rfl, rfl⟩

/-- R162, FN 0 to 8. -/
theorem test_decode_matrix :
    decode 0xB800F2A6 = .ok (.mrow 3 0x65 38) ∧ decode 0xB825B2A6 = .ok (.mrows 2 6 0x65 38) ∧
    decode 0xB854DA99 = .ok (.mdrain 0x53 53 true .bf16) ∧ decode 0xB8601AA6 = .ok (.mzero 53 38) ∧
    decode 0xB880F2A6 = .ok (.twrow 3 0x65 38) ∧ decode 0xB8B4C326 = .ok (.trcol 0x53 6 38) ∧
    decode 0xB8C0DA80 = .ok (.tlds 3 53) ∧ decode 0xB8E0DAA6 = .ok (.tldm 3 53 38) ∧ decode 0xB900C626 = .ok (.tset 3 .e2m1 38) :=
  ⟨rfl, rfl, rfl, rfl, rfl, rfl, rfl, rfl, rfl⟩

/-- R162, FN 9 to 20. -/
theorem test_decode_engine :
    decode 0xB926DAA6 = .ok (.tcopy 27 53 38) ∧ decode 0xB954DAAA = .ok (.sbind 0x53 53 .e4m3 2) ∧
    decode 0xB9600003 = .ok (.sfree 3) ∧ decode 0xB9801AB6 = .ok (.happend 53 54) ∧
    decode 0xB9B4DAB6 = .ok (.hloade 0x53 53 54) ∧ decode 0xB9D4DAA6 = .ok (.hloadr 0x53 53 38) ∧
    decode 0xB9E01A80 = .ok (.hsync 53) ∧ decode 0xBA06DAB6 = .ok (.vapp 27 53 54) ∧
    decode 0xBA34DAB6 = .ok (.vpropose 0x53 53 54) ∧ decode 0xBA40DAB6 = .ok (.vwaitall 3 53 54) ∧
    decode 0xBA60DAB6 = .ok (.vwaitany 3 53 54) ∧ decode 0xBA80F2A6 = .ok (.vtopk 3 0x65 38) :=
  ⟨rfl, rfl, rfl, rfl, rfl, rfl, rfl, rfl, rfl, rfl, rfl, rfl⟩

/-- R163. -/
theorem test_decode_alu :
    decode 0xC1BD6600 = .ok (.add 27 53 38) ∧ decode 0xC1BD6601 = .ok (.sub 27 53 38) ∧
    decode 0xC1BD6602 = .ok (.and 27 53 38) ∧ decode 0xC1BD6603 = .ok (.or 27 53 38) ∧ decode 0xC1BD6604 = .ok (.xor 27 53 38) ∧
    decode 0xC1BD6605 = .ok (.andn 27 53 38) ∧ decode 0xC1BD6606 = .ok (.shl 27 53 38) ∧
    decode 0xC1BD6607 = .ok (.shr 27 53 38) ∧ decode 0xC1BD6608 = .ok (.sar 27 53 38) ∧
    decode 0xC1BD6609 = .ok (.slt 27 53 38) ∧ decode 0xC1BD660A = .ok (.sltn 27 53 38) ∧
    decode 0xC1BD660B = .ok (.min 27 53 38) ∧ decode 0xC1BD660C = .ok (.max 27 53 38) ∧
    decode 0xC1BD660D = .ok (.minn 27 53 38) ∧ decode 0xC1BD660E = .ok (.maxn 27 53 38) ∧
    decode 0xC1BD6610 = .ok (.mul 27 53 38) ∧ decode 0xC1BD6611 = .ok (.mulh 27 53 38) ∧
    decode 0xC1BD6612 = .ok (.mulhn 27 53 38) ∧ decode 0xC1BD6613 = .ok (.div 27 53 38) ∧
    decode 0xC1BD6614 = .ok (.divn 27 53 38) ∧ decode 0xC1BD6615 = .ok (.rem 27 53 38) ∧
    decode 0xC1BD6616 = .ok (.remn 27 53 38) ∧ decode 0xC1BD4018 = .ok (.clz 27 53) ∧ decode 0xC1BD4019 = .ok (.ctz 27 53) ∧
    decode 0xC1BD401A = .ok (.popc 27 53) ∧ decode 0xC1BD401B = .ok (.sextb 27 53) ∧ decode 0xC1BD401C = .ok (.sexth 27 53) ∧
    decode 0xC1BD401D = .ok (.sextw 27 53) ∧ decode 0xC00D4020 = .ok (.jr 53) ∧ decode 0xC00D4021 = .ok (.callr 53) :=
  ⟨rfl, rfl, rfl, rfl, rfl, rfl, rfl, rfl, rfl, rfl, rfl, rfl, rfl, rfl, rfl, rfl, rfl, rfl, rfl, rfl, rfl, rfl, rfl,
  rfl, rfl, rfl, rfl, rfl, rfl, rfl⟩

/-- R164. -/
theorem test_decode_immediate :
    decode 0xC5BD4C3D = .ok (.addi 27 53 0xC3D) ∧ decode 0xC5BD5C3D = .ok (.andi 27 53 0xC3D) ∧
    decode 0xC5BD6C3D = .ok (.ori 27 53 0xC3D) ∧ decode 0xC5BD7C3D = .ok (.xori 27 53 0xC3D) ∧
    decode 0xC9BD4C3D = .ok (.slti 27 53 0xC3D) ∧ decode 0xC9BD5C3D = .ok (.sltin 27 53 0xC3D) ∧
    decode 0xC9BD602D = .ok (.shli 27 53 45) ∧ decode 0xC9BD702D = .ok (.shri 27 53 45) ∧
    decode 0xC9BD706D = .ok (.sari 27 53 45) ∧ decode 0xCDBA5C3D = .ok (.lui 27 0xA5C3D) ∧
    decode 0xD1BA5C3D = .ok (.addpc 27 0xA5C3D) :=
  ⟨rfl, rfl, rfl, rfl, rfl, rfl, rfl, rfl, rfl, rfl, rfl⟩

/-- R165. -/
theorem test_decode_transfer :
    decode 0xD7598FEE = .ok (.beq 53 38 0xFEE) ∧ decode 0xD7599FEE = .ok (.bne 53 38 0xFEE) ∧
    decode 0xD759AFEE = .ok (.blt 53 38 0xFEE) ∧ decode 0xD759BFEE = .ok (.bge 53 38 0xFEE) ∧
    decode 0xDB598FEE = .ok (.bltn 53 38 0xFEE) ∧ decode 0xDB599FEE = .ok (.bgen 53 38 0xFEE) ∧
    decode 0xDB59AFEE = .ok (.bbs 53 38 0xFEE) ∧ decode 0xDB59BFEE = .ok (.bbc 53 38 0xFEE) ∧
    decode 0xDDC0FFEE = .ok (.j 0x1C0FFEE) ∧ decode 0xDFC0FFEE = .ok (.call 0x1C0FFEE) :=
  ⟨rfl, rfl, rfl, rfl, rfl, rfl, rfl, rfl, rfl, rfl⟩

/-- R165, the L and ST formats and STRIP. -/
theorem test_decode_scalar_memory :
    decode 0xE1BD4C3D = .ok (.ldb 27 53 .uc 61) ∧ decode 0xE1BD503D = .ok (.ldh 27 53 .own 61) ∧
    decode 0xE1BD643D = .ok (.ldw 27 53 .wt 61) ∧ decode 0xE1BD783D = .ok (.ldd 27 53 .si 61) ∧
    decode 0xE5BD4C3D = .ok (.ldbn 27 53 .uc 61) ∧ decode 0xE5BD503D = .ok (.ldhn 27 53 .own 61) ∧
    decode 0xE5BD643D = .ok (.ldwn 27 53 .wt 61) ∧ decode 0xE9BD483D = .ok (.stb 27 53 .si 61) ∧
    decode 0xE9BD5C3D = .ok (.sth 27 53 .uc 61) ∧ decode 0xE9BD603D = .ok (.stw 27 53 .own 61) ∧
    decode 0xE9BD743D = .ok (.std 27 53 .wt 61) ∧ decode 0xECA8AFFD = .ok (.strip 10 2 43 0x3FD) :=
  ⟨rfl, rfl, rfl, rfl, rfl, rfl, rfl, rfl, rfl, rfl, rfl, rfl⟩

/-- R165, the A formats. -/
theorem test_decode_home :
    decode 0xF1BD661C = .ok (.amoswap 27 53 38 .ar .system) ∧ decode 0xF1BD663C = .ok (.amoadd 27 53 38 .ar .system) ∧
    decode 0xF1BD665C = .ok (.amoand 27 53 38 .ar .system) ∧ decode 0xF1BD667C = .ok (.amoor 27 53 38 .ar .system) ∧
    decode 0xF1BD669C = .ok (.amomax 27 53 38 .ar .system) ∧ decode 0xF1BD66BC = .ok (.amomin 27 53 38 .ar .system) ∧
    decode 0xF1BD66DC = .ok (.amomaxn 27 53 38 .ar .system) ∧ decode 0xF1BD66FC = .ok (.amocas 27 53 38 .ar .system) ∧
    decode 0xF5BD400B = .ok (.ldo 27 53 .acq .device) ∧ decode 0xF40D6634 = .ok (.sto 53 38 .rel .system) ∧
    decode 0xF5BD4041 = .ok (.ldow 27 53 .rlx .cluster) ∧ decode 0xF40D6670 = .ok (.stow 53 38 .rel .core) ∧
    decode 0xF400009A = .ok (.fence .ar .die) ∧ decode 0xF40000A4 = .ok (.vdrain .system) ∧
    decode 0xF5BD66DA = .ok (.propose 27 53 38 .die) ∧ decode 0xF5BD40E9 = .ok (.oread 27 53 .cluster) :=
  ⟨rfl, rfl, rfl, rfl, rfl, rfl, rfl, rfl, rfl, rfl, rfl, rfl, rfl, rfl, rfl, rfl⟩

/-- R166. -/
theorem test_decode_control :
    decode 0xF8000000 = .ok (.nop) ∧ decode 0xF8000001 = .ok (.yieldTurn) ∧ decode 0xF8000002 = .ok (.exit) ∧
    decode 0xF80ABC03 = .ok (.trap 0xABC) ∧ decode 0xF8000004 = .ok (.brk) ∧ decode 0xF8015505 = .ok (.gate 0x155) ∧
    decode 0xF8000006 = .ok (.gret) ∧ decode 0xF9B00007 = .ok (.clk 27) ∧ decode 0xF80D4008 = .ok (.waituntil 53) ∧
    decode 0xF9BD4210 = .ok (.setvl 27 53 2) ∧ decode 0xF8008011 = .ok (.window 2) ∧ decode 0xF8028012 = .ok (.valloc 10) ∧
    decode 0xF8004013 = .ok (.vshrink 1) ∧ decode 0xF9B01414 = .ok (.mfc 27 20) ∧ decode 0xF9B01515 = .ok (.mtc 27 21) :=
  ⟨rfl, rfl, rfl, rfl, rfl, rfl, rfl, rfl, rfl, rfl, rfl, rfl, rfl, rfl, rfl⟩

/-- R166. -/
theorem test_decode_append_and_sync :
    decode 0xF9BD6620 = .ok (.app 27 53 38) ∧ decode 0xF9BD6621 = .ok (.appat 27 53 38) ∧
    decode 0xF80D4022 = .ok (.sealPage 53) ∧ decode 0xF80D4023 = .ok (.oclear 53) ∧ decode 0xF9BD4024 = .ok (.appmark 27 53) ∧
    decode 0xF80D6628 = .ok (.abinit 53 38) ∧ decode 0xF80D6629 = .ok (.abexpect 53 38) ∧
    decode 0xF80D402A = .ok (.abarrive 53) ∧ decode 0xF80D662B = .ok (.abwait 53 38) ∧ decode 0xF9BD402C = .ok (.abtest 27 53) ∧
    decode 0xF9BD4030 = .ok (.srread 27 53) ∧ decode 0xF9BD6631 = .ok (.srtas 27 53 38) ∧
    decode 0xF9BD6632 = .ok (.srfadd 27 53 38) ∧ decode 0xF9BD6633 = .ok (.srwait 27 53 38) ∧
    decode 0xF8014038 = .ok (.cdrain 5) ∧ decode 0xF80D6639 = .ok (.enq 53 38) ∧ decode 0xF9BD403A = .ok (.hstat 27 53) :=
  ⟨rfl, rfl, rfl, rfl, rfl, rfl, rfl, rfl, rfl, rfl, rfl, rfl, rfl, rfl, rfl, rfl, rfl⟩

/-- R166. -/
theorem test_decode_privileged :
    decode 0xF8000080 = .ok (.eret) ∧ decode 0xF9B11B81 = .ok (.mfs 27 0x11B) ∧ decode 0xF9B10182 = .ok (.mts 27 0x101) ∧
    decode 0xF9BD6683 = .ok (.shoot 27 53 38) ∧ decode 0xF80D6684 = .ok (.tlbinv 53 38) ∧
    decode 0xF9BD6685 = .ok (.resume 27 53 38) ∧ decode 0xF9BD4086 = .ok (.halt 27 53) ∧ decode 0xF9BD4087 = .ok (.frqpop 27 53) :=
  ⟨rfl, rfl, rfl, rfl, rfl, rfl, rfl, rfl⟩

/-- R156 R160 R171: words that are not allocated: OP 0x2F and 0x3F, FM 11 under OP 0x01, a set bit that must be zero, FN8 0xF of the ALU,
FN3 7 of the stores. -/
theorem test_decode_refuses_unallocated :
    decode 0xBC000000 = .error .notAllocated ∧ decode 0xFFFFFFFF = .error .notAllocated ∧
    decode 0x07B4F2B6 = .error .notAllocated ∧ decode 0xF8000100 = .error .notAllocated ∧
    decode 0xC000000F = .error .notAllocated ∧ decode 0x01B4F2C0 = .error .notAllocated := ⟨rfl, rfl, rfl, rfl, rfl, rfl⟩

/-- R160 R162 R165 R166: allocated words with an operand that is refused: a slide by a vector, VCVT to RAW, LDO with rel, FENCE rlx, WINDOW 3,
MFC of 0x007, GATE 1,024. -/
theorem test_decode_refuses_operands :
    decode 0x90B4F2B6 = .error .operandRefused ∧ decode 0x8FB4F280 = .error .operandRefused ∧
    decode 0xF5BD4010 = .error .operandRefused ∧ decode 0xF4000080 = .error .operandRefused ∧
    decode 0xF800C011 = .error .operandRefused ∧ decode 0xF8100714 = .error .operandRefused ∧
    decode 0xF8040005 = .error .operandRefused := ⟨rfl, rfl, rfl, rfl, rfl, rfl, rfl⟩

/-- 00_scope R2: the least significant byte of a word stands at the lowest address; three bytes are too short. -/
theorem test_decode_bytes :
    decodeBytes [0x00, 0x05, 0x31, 0xC0, 0xAA] = .ok (.add 3 4 5, [0xAA]) ∧ decodeBytes [0x00, 0x05, 0x31] = .error .tooShort := ⟨rfl, rfl⟩

/-! Small states for the witnesses. -/

/-- Scalar registers set one after another. -/
def withRegs (s : State) (l : List (SReg × Word)) : State := l.foldl (fun s p => s.wr p.1 p.2) s

/-- A translation of partition 0: page n of 64 KiB is in a frame, readable, writable and executable, of a type. -/
def pageOf (n frame ty : Nat) : TlbEntry := { part := 0, vpage := n, big := false, leaf := frame * 65536 + 0x33 + 4 * ty, gen := 0 }

/-- Page 1 is NORMAL, 2 APPEND, 3 ONCE, 4 DEVICE, 5 another NORMAL page. -/
def pages : List TlbEntry := [pageOf 1 0x100 0, pageOf 2 0x101 1, pageOf 3 0x102 2, pageOf 4 0x103 3, pageOf 5 0x104 0]

/-- The first Fliven strand after the start. -/
def flv : State := { State.reset with stage := .ready, dies := [(0, { tlb := pages })] }

def elems (w : Nat) (t : Tag) (l : List Nat) : Slot :=
  { tag := t, bits := BitVec.ofNat 32768 ((l.zipIdx.map fun p => p.1 * 2 ^ (w * p.2)).sum) }

/-- Registers v1 to v14, one a tag, v15 an offset register with the values after it in v16. -/
def slots0 : Map Slot :=
  [(1, elems 32 .i32 [5, 0xFFFFFFFF, 7, 0x80000000]), (2, elems 32 .i32 [1, 2, 0, 3]), (3, elems 32 .f32 [0x3F800000, 0x40000000, 0, 0xFF800000]),
   (4, elems 32 .f32 [0x40000000, 0x3F800000, 0, 0x3F800000]), (5, elems 8 .i8 [1, 2, 3, 4]), (6, elems 8 .i8 [0xFF, 2, 3, 4]),
   (7, elems 16 .bf16 [0x3F80, 0x4000]), (8, elems 32 .i32 []), (9, elems 32 .f32 []), (10, elems 4 .e2m1 [1, 2, 3, 4]), (11, elems 16 .f16 []),
   (12, elems 8 .e4m3 []), (13, elems 8 .e8m0 []), (14, elems 32 .n32 [0, 4, 8, 12]), (15, elems 32 .n32 [0, 16, 32, 48]),
   (16, elems 32 .n32 [])]

/-- The strand in slot 0 of core 0: one lane group of 2,048 bits, four elements, an allotment of 160 slots, alone in its gang. -/
def cpt : State :=
  let me : Strand :=
    { status := .ready, pc := 0x10000
      id := { nstr := 1, ngang := 1, mx := true, gang := 1, launch := 1 }
      v := { vl := 4, vw := 3, lg := 1, valc := 160, groups := [0], slots := slots0 } }
  let s : State := { State.reset with
    stage := .ready, key := 0, me := me, others := []
    cores := [(0, { groups := { owner := some 0 } :: List.replicate 15 {}, mxGang := some 1
                    tiles := [(0, { tag := .bf16, depth := 2 }), (1, { tag := .bf16, depth := 2 }), (2, { tag := .e2m1, depth := 32 })] })]
    dies := [(0, { tlb := pages })]
    gangs := [(1, { gid := 0, launch := 1, part := 0, cluster := 0, cids := [0], keys := [0], state := .running, task := { ngang := 1, spad := 4 } })]
    launches := [(1, { part := 0, queue := 0, index := 0, task := { ngang := 1, spad := 4 }, lstart := 0, placed := 1 })] }
  withRegs s [(1, 0x10000), (2, 0x20000), (3, 0x30000), (4, 0x40000), (5, 0x8000000000000000), (6, 0x8000000000001000), (7, 4), (8, 1)]

/-- Another number of elements. -/
def withVl (s : State) (n : Nat) : State := { s with me := { s.me with v := { s.me.v with vl := n } } }

/-- The state in which the entry of a word stands in the queue, and the unit that it needs takes it. -/
def queued (s : State) (i : Instr) : State := takenBy (sharedUnit (entryFor s i)) (pushEntry s (entryFor s i))

/-- The same, with the strand asleep on the entry. -/
def queuedAsleep (s : State) (i : Instr) : State := takenBy (sharedUnit (entryFor s i)) (sleepOn (pushEntry s (entryFor s i)))

/-! What makes `Calm`, `Free` and `Enters` true of a concrete state. -/

def calmB (s : State) : Bool :=
  !s.later && s.me.status == .ready && s.me.queue == [] && s.me.ord.path == [] && s.me.ord.relFence == none

theorem calm_of {s : State} (h : calmB s = true) : Claim.Calm s := by
  simp only [calmB, Bool.and_eq_true, Bool.not_eq_true', beq_iff_eq] at h
  exact ⟨h.1.1.1.1, h.1.1.1.2, h.1.1.2, h.1.2, h.2⟩

theorem free_of {s : State} (h : s.me.queue = []) (rs : List SReg) (hp : s.me.ord.path = [] := by rfl) : Claim.Free s rs :=
  ⟨fun e he => by simp [h] at he, fun p hx => by simp [hp] at hx⟩

theorem idle_of {s : State} (h : s.me.queue = []) (hp : s.me.ord.path = [] := by rfl) : Claim.Idle s := by
  simp [Claim.Idle, Claim.NoLoads, h, hp]

theorem no_releases_of {s : State} (hp : s.me.ord.path = [] := by rfl) : Claim.NoReleases s := fun p hx => by simp [hp] at hx

def freshB (s : State) : Bool := s.me.v.vstart == 0 && s.me.v.vdone == 0 && s.me.v.fppend == false

def awakeB (s : State) : Bool := s.me.v.groups.all fun g => ((s.core s.myCore).groups[g]?).all fun x => !x.asleep

theorem awake_of {s : State} (h : awakeB s = true) :
    ∀ g ∈ s.me.v.groups, ∀ x, (s.core s.myCore).groups[g]? = some x → x.asleep = false := by
  intro g hg x hx
  have := List.all_eq_true.mp h g hg
  simpa [hx] using this

theorem fresh_of {s : State} (h : freshB s = true) : s.me.v.vstart = 0 ∧ s.me.v.vdone = 0 ∧ s.me.v.fppend = false := by
  simp only [freshB, Bool.and_eq_true, beq_iff_eq] at h
  exact ⟨h.1.1, h.1.2, h.2⟩

def entersB (i : Instr) (mx : Bool) (s : State) : Bool :=
  calmB s && (decodeTrap s i mx == none) && freshB s && awakeB s && (bindingTrap s.me.v (entryFor s i) == none)
    && (popSlots s.me.v (entryFor s i) == [])
    && (match sharedUnit (entryFor s i) with
      | none => true
      | some n => aheadAtUnit s n == [])

theorem alone_of {u : Option Nat} {s : State} (h : (match u with
      | none => true
      | some n => aheadAtUnit s n == []) = true) : ∀ n, u = some n → aheadAtUnit s n = [] := by
  rintro n rfl
  exact beq_iff_eq.mp h

theorem popAll_taken {u : Option Nat} {s : State} {e : Entry} (h : popSlots s.me.v e = []) :
    popAll (takenBy u s) e = .ready (takenBy u s) (takenBy u s) none :=
  popAll_unbound (by rw [takenBy_me]; exact h)

/-- A word without a bound source enters the lanes as it stands in the queue. -/
theorem enters_of {i : Instr} {mx : Bool} {s : State} (h : entersB i mx s = true) : Claim.Enters i mx s (queued s i) := by
  obtain ⟨h, ha⟩ := Bool.and_eq_true _ _ ▸ h
  simp only [Bool.and_eq_true, beq_iff_eq] at h
  exact ⟨calm_of h.1.1.1.1.1, h.1.1.1.1.2, fresh_of h.1.1.1.2, awake_of h.1.1.2, h.1.2, alone_of ha,
    ⟨_, popAll_taken (s := pushEntry s (entryFor s i)) h.2⟩⟩

theorem enters_asleep_of {i : Instr} {s : State} (h : entersB i false s = true) :
    Claim.EntersAsleep i s (queuedAsleep s i) := by
  obtain ⟨h, ha⟩ := Bool.and_eq_true _ _ ▸ h
  simp only [Bool.and_eq_true, beq_iff_eq] at h
  exact ⟨calm_of h.1.1.1.1.1, h.1.1.1.1.2, fresh_of h.1.1.1.2, awake_of h.1.1.2, h.1.2, alone_of ha,
    ⟨_, popAll_taken (s := sleepOn (pushEntry s (entryFor s i))) h.2⟩⟩

theorem tagged_v {u : State} {t : Tag} {r : VReg} (h : (Claim.reg u r).tag = t) : Claim.secondTagged u (.v r) t := by
  intro q hq
  cases hq
  exact h

theorem tagged_s {u : State} {t : Tag} {r : SReg} : Claim.secondTagged u (.s r) t := by
  intro q hq
  cases hq

theorem tagged_i {u : State} {t : Tag} {x : BitVec 7} : Claim.secondTagged u (.i x) t := by
  intro q hq
  cases hq

open Sys2Proof.Claim

/-! Vector arithmetic: a state and operands that meet the hypotheses of each statement. -/

theorem test_meets_integer_words : ∀ p ∈ integerRules, let i := p.1 0 8 1 (.v 2); let u := queued cpt i
    Enters i false cpt u ∧ (reg u 1).tag ∈ intTags ∧ secondTagged u (.v 2) (reg u 1).tag ∧
    (p.2.1 = true → (reg u 8).tag = (reg u 1).tag) ∧ fits u (reg u 1).tag.width := by
  have h : ∀ p ∈ integerRules, entersB (p.1 0 8 1 (.v 2)) false cpt = true := by decide +kernel
  intro p hp
  refine ⟨enters_of (h p hp), ?_, tagged_v ?_, ?_, ?_⟩
  all_goals (try simp only [fits]); revert p; decide +kernel

theorem test_meets_integer_words_immediate : ∀ p ∈ integerRules, let i := p.1 0 5 5 (.i 127); let u := queued cpt i
    Enters i false cpt u ∧ (reg u 5).tag ∈ intTags ∧ secondTagged u (.i 127) (reg u 5).tag ∧ fits u (reg u 5).tag.width := by
  have h : ∀ p ∈ integerRules, entersB (p.1 0 5 5 (.i 127)) false cpt = true := by decide +kernel
  intro p hp
  refine ⟨enters_of (h p hp), ?_, tagged_i, ?_⟩
  all_goals (try simp only [fits]); revert p; decide +kernel

theorem test_meets_bitwise_words : ∀ p ∈ bitwiseRules, let i := p.1 0 8 1 (.v 3); let u := queued cpt i
    Enters i false cpt u ∧ (reg u 1).tag ≠ .e2m1 ∧ (reg u 3).tag ≠ .e2m1 ∧ bitwiseTag u 1 (.v 3) = .raw ∧
    fits u (bitwiseTag u 1 (.v 3)).width := by
  have h : ∀ p ∈ bitwiseRules, entersB (p.1 0 8 1 (.v 3)) false cpt = true := by decide +kernel
  intro p hp
  refine ⟨enters_of (h p hp), ?_, ?_, ?_, ?_⟩
  all_goals (try simp only [fits]); revert p; decide +kernel

theorem test_meets_bitwise_words_immediate : ∀ p ∈ bitwiseRules, let i := p.1 0 8 1 (.i 3); let u := queued cpt i
    Enters i false cpt u ∧ (reg u 1).tag ≠ .raw ∧ (reg u 1).tag ≠ .e8m0 ∧ fits u (bitwiseTag u 1 (.i 3)).width := by
  have h : ∀ p ∈ bitwiseRules, entersB (p.1 0 8 1 (.i 3)) false cpt = true := by decide +kernel
  intro p hp
  refine ⟨enters_of (h p hp), ?_, ?_, ?_⟩
  all_goals (try simp only [fits]); revert p; decide +kernel

theorem test_meets_integer_compares : ∀ p ∈ compareRules, let i := p.1 0 2 1 (.v 2); let u := queued cpt i
    Enters i false cpt u ∧ (reg u 1).tag ∈ intTags ∧ secondTagged u (.v 2) (reg u 1).tag ∧ fits u (reg u 1).tag.width := by
  have h : ∀ p ∈ compareRules, entersB (p.1 0 2 1 (.v 2)) false cpt = true := by decide +kernel
  intro p hp
  refine ⟨enters_of (h p hp), ?_, tagged_v ?_, ?_⟩
  all_goals (try simp only [fits]); revert p; decide +kernel

theorem test_meets_float_words : ∀ p ∈ floatRules, let i := p.1 0 9 3 (.v 4); let u := queued cpt i
    Enters i false cpt u ∧ (reg u 3).tag ∈ floatTags ∧ secondTagged u (.v 4) (reg u 3).tag ∧
    (p.2.1 = true → (reg u 9).tag = (reg u 3).tag) ∧ fits u (reg u 3).tag.width ∧ noFpTraps u := by
  have h : ∀ p ∈ floatRules, entersB (p.1 0 9 3 (.v 4)) false cpt = true := by decide +kernel
  intro p hp
  refine ⟨enters_of (h p hp), ?_, tagged_v ?_, ?_, ?_, .inr ?_⟩
  all_goals (try simp only [fits]); revert p; decide +kernel

theorem test_meets_float_compares : ∀ p ∈ floatCompareRules, let i := p.1 0 0 3 (.v 4); let u := queued cpt i
    Enters i false cpt u ∧ (reg u 3).tag ∈ floatTags ∧ secondTagged u (.v 4) (reg u 3).tag ∧ fits u (reg u 3).tag.width ∧
    noFpTraps u := by
  have h : ∀ p ∈ floatCompareRules, entersB (p.1 0 0 3 (.v 4)) false cpt = true := by decide +kernel
  intro p hp
  refine ⟨enters_of (h p hp), ?_, tagged_v ?_, ?_, .inr ?_⟩
  all_goals (try simp only [fits]); revert p; decide +kernel

theorem test_meets_moving_words :
    (∀ i ∈ [Instr.vmerge 1 8 1 (.v 2), .vslideup 0 8 1 (.i 63), .vslidedn 0 8 1 (.s 7), .vperm 0 8 1 14, .vxch 0 8 1 (.i 32)],
      Enters i false cpt (queued cpt i) ∧ (reg (queued cpt i) 1).tag ≠ .e2m1 ∧ fits (queued cpt i) (reg (queued cpt i) 1).tag.width) ∧
    secondTagged (queued cpt (.vmerge 1 8 1 (.v 2))) (.v 2) (reg (queued cpt (.vmerge 1 8 1 (.v 2))) 1).tag ∧
    (reg (queued cpt (.vperm 0 8 1 14)) 14).tag ∈ intTags ∧
    (reg (queued cpt (.vperm 0 8 1 14)) 14).tag.width = (reg (queued cpt (.vperm 0 8 1 14)) 1).tag.width ∧
    offset cpt (.i 32) ∈ [1, 2, 4, 8, 16, 32] ∧ offset (withRegs cpt [(7, 1)]) (.s 7) ∈ [1, 2, 4, 8, 16, 32] := by
  have h : ∀ i ∈ [Instr.vmerge 1 8 1 (.v 2), .vslideup 0 8 1 (.i 63), .vslidedn 0 8 1 (.s 7), .vperm 0 8 1 14, .vxch 0 8 1 (.i 32)],
    entersB i false cpt = true := by decide +kernel
  refine ⟨fun i hi => ⟨enters_of (h i hi), ?_, ?_⟩, tagged_v ?_, ?_, ?_, ?_, ?_⟩
  · revert i; decide +kernel
  · (try simp only [fits]); revert i; decide +kernel
  all_goals decide +kernel

theorem test_meets_unary_words : (∀ p ∈ unaryRules, let i := p.1 0 8 1; let u := queued cpt i
    Enters i false cpt u ∧ (reg u 1).tag ∈ p.2.1 ∧ fits u (reg u 1).tag.width) ∧
    ∀ a ∈ [(10 : VReg), 17], let i := Instr.vmov 0 8 a; let u := queued cpt i
      Enters i false cpt u ∧ (reg u a).tag ∈ [Tag.e2m1, .raw] ∧ fits u (reg u a).tag.width := by
  have h : ∀ p ∈ unaryRules, entersB (p.1 0 8 1) false cpt = true := by decide +kernel
  have h' : ∀ a ∈ [(10 : VReg), 17], entersB (.vmov 0 8 a) false cpt = true := by decide +kernel
  refine ⟨fun p hp => ⟨enters_of (h p hp), ?_, ?_⟩, fun a ha => ⟨enters_of (h' a ha), ?_, ?_⟩⟩
  · revert p; decide +kernel
  · (try simp only [fits]); revert p; decide +kernel
  · revert a; decide +kernel
  · (try simp only [fits]); revert a; decide +kernel

/-- The grant of another width. -/
def withVw (s : State) (w : Nat) : State := { s with me := { s.me with v := { s.me.v with vw := w } } }

theorem test_meets_iota_and_retag : (∀ p ∈ [(1, Tag.n8), (2, Tag.n16), (3, Tag.n32)], let s := withVw cpt p.1
      Enters (.viota 1 8) false s (queued s (.viota 1 8)) ∧ s.me.v.vw = p.1 ∧ fits (queued s (.viota 1 8)) p.2.width) ∧
    Enters (.vtag 8 1 .e2m1) false cpt (queued cpt (.vtag 8 1 .e2m1)) := by
  have h : ∀ p ∈ [(1, Tag.n8), (2, Tag.n16), (3, Tag.n32)], entersB (.viota 1 8) false (withVw cpt p.1) = true := by decide +kernel
  refine ⟨fun p hp => ⟨enters_of (h p hp), rfl, ?_⟩, enters_of (by decide +kernel)⟩
  (try simp only [fits]); revert p; decide +kernel

theorem test_meets_float_unary_words : ∀ p ∈ floatUnaryRules, let i := p.1 0 9 3; let u := queued cpt i
    Enters i false cpt u ∧ (reg u 3).tag ∈ floatTags ∧ fits u (reg u 3).tag.width ∧ noFpTraps u := by
  have h : ∀ p ∈ floatUnaryRules, entersB (p.1 0 9 3) false cpt = true := by decide +kernel
  intro p hp
  refine ⟨enters_of (h p hp), ?_, ?_, .inr ?_⟩
  all_goals (try simp only [fits]); revert p; decide +kernel

/-- Narrowing to the last part, widening, and from E2M1 (part 0). -/
theorem test_meets_conversions : ∀ c ∈ [((1 : VReg), Tag.i8, (3 : BitVec 2)), (5, .f32, 3), (10, .f16, 0), (3, .e8m0, 0)],
    let i := Instr.vcvt 0 8 c.1 c.2.1 c.2.2 false; let u := queued cpt i
    Enters i false cpt u ∧ (reg u c.1).tag ≠ .raw ∧ c.2.1 ≠ .raw ∧ c.2.1 ≠ .e2m1 ∧
    ((reg u c.1).tag = .e2m1 → c.2.2 = 0 ∨ u.me.v.vl % 32 = 0) ∧
    c.2.2.toNat < max (reg u c.1).tag.width c.2.1.width / min (reg u c.1).tag.width c.2.1.width ∧
    fits u (max (reg u c.1).tag.width c.2.1.width) ∧ noFpTraps u := by
  have h : ∀ c ∈ [((1 : VReg), Tag.i8, (3 : BitVec 2)), (5, .f32, 3), (10, .f16, 0), (3, .e8m0, 0)],
    entersB (.vcvt 0 8 c.1 c.2.1 c.2.2 false) false cpt = true := by decide +kernel
  intro c hc
  refine ⟨enters_of (h c hc), ?_, ?_, ?_, ?_, ?_, ?_, .inr ?_⟩
  all_goals (try simp only [fits]); revert c; decide +kernel

/-- To E2M1 (part 0 of 4 elements, part 3 of 32), and with EF from a wider and from a narrower tag. -/
theorem test_meets_quantising_conversions :
    (∀ c ∈ [((0 : BitVec 2), 4), (3, 32)], let s := withVl cpt c.2; let i := Instr.vcvt 0 8 3 .e2m1 c.1 false; let u := queued s i
      Enters i false s u ∧ (reg u 3).tag ∈ floatTags ∧ c.1.toNat < (reg u 3).tag.width / 4 ∧ fits u (reg u 3).tag.width ∧
      (c.1 = 0 ∨ u.me.v.vl % 32 = 0) ∧ noFpTraps u) ∧
    ∀ c ∈ [((3 : VReg), Tag.e5m2, (3 : BitVec 2)), (5, .bf16, 1), (10, .f16, 0)],
      let i := Instr.vcvt 0 8 c.1 c.2.1 c.2.2 true; let u := queued cpt i
      Enters i false cpt u ∧ (reg u c.1).tag ≠ .raw ∧ c.2.1 ∈ [Tag.f16, .bf16, .e4m3, .e5m2] ∧
      ((reg u c.1).tag = .e2m1 → c.2.2 = 0 ∨ u.me.v.vl % 32 = 0) ∧
      c.2.2.toNat < max (reg u c.1).tag.width c.2.1.width / min (reg u c.1).tag.width c.2.1.width ∧
      fits u (max (reg u c.1).tag.width c.2.1.width) ∧ noFpTraps u := by
  have h : ∀ c ∈ [((0 : BitVec 2), 4), (3, 32)], entersB (.vcvt 0 8 3 .e2m1 c.1 false) false (withVl cpt c.2) = true := by decide +kernel
  have h' : ∀ c ∈ [((3 : VReg), Tag.e5m2, (3 : BitVec 2)), (5, .bf16, 1), (10, .f16, 0)],
    entersB (.vcvt 0 8 c.1 c.2.1 c.2.2 true) false cpt = true := by decide +kernel
  refine ⟨fun c hc => ⟨enters_of (h c hc), ?_, ?_, ?_, ?_, .inr ?_⟩, fun c hc => ⟨enters_of (h' c hc), ?_, ?_, ?_, ?_, ?_, .inr ?_⟩⟩
  all_goals (try simp only [fits]); revert c; decide +kernel

theorem test_meets_reductions : (∀ p ∈ reductionRules, let i := p.1 0 9 1; let u := queued cpt i
      Enters i false cpt u ∧ (reg u 1).tag ∈ intTags ∧ fits u (reg u 1).tag.width) ∧
    ∀ i ∈ [Instr.vredfsum 0 9 3, .vredfmax 0 0 3, .vredfmin 0 9 3], let u := queued cpt i
      Enters i false cpt u ∧ (reg u 3).tag ∈ floatTags ∧ fits u (reg u 3).tag.width ∧ noFpTraps u := by
  have h : ∀ p ∈ reductionRules, entersB (p.1 0 9 1) false cpt = true := by decide +kernel
  have h' : ∀ i ∈ [Instr.vredfsum 0 9 3, .vredfmax 0 0 3, .vredfmin 0 9 3], entersB i false cpt = true := by decide +kernel
  refine ⟨fun p hp => ⟨enters_of (h p hp), ?_, ?_⟩, fun i hi => ⟨enters_of (h' i hi), ?_, ?_, .inr ?_⟩⟩
  · revert p; decide +kernel
  · (try simp only [fits]); revert p; decide +kernel
  all_goals (try simp only [fits]); revert i; decide +kernel

theorem test_meets_mask_words_and_moves :
    (∀ i ∈ [Instr.vpopc 0 9 1, .vfirst 0 9 1, .mand 0 0 1 2, .mor 0 3 1 2, .mxor 0 3 1 2, .mandn 0 3 1 2, .mnot 0 3 1, .mset 0 3, .mclr 0 3,
        .mmov 0 3 1, .vsplat 0 8 7, .vins 0 8 7, .vmovs 0 9 1],
      Enters i false cpt (queued cpt i)) ∧
    (∀ i ∈ [Instr.vsplat 0 8 7, .vins 0 8 7], let u := queued cpt i; (reg u 8).tag ≠ .e2m1 ∧ fits u (reg u 8).tag.width) ∧
    (let u := queued cpt (.vmovs 0 9 1); (reg u 1).tag ≠ .e2m1 ∧ fits u (reg u 1).tag.width) := by
  have h : ∀ i ∈ [Instr.vpopc 0 9 1, .vfirst 0 9 1, .mand 0 0 1 2, .mor 0 3 1 2, .mxor 0 3 1 2, .mandn 0 3 1 2, .mnot 0 3 1, .mset 0 3,
    .mclr 0 3, .mmov 0 3 1, .vsplat 0 8 7, .vins 0 8 7, .vmovs 0 9 1], entersB i false cpt = true := by decide +kernel
  refine ⟨fun i hi => enters_of (h i hi), ?_, ?_⟩
  all_goals (try simp only [fits]); decide +kernel

/-! Scalars, memory, homes. -/

/-- The places of the pages of `pages`, and of scratchpad byte 0 of the gang of `cpt`. -/
def at1 : Place := { loc := .gen 0x1000000 .normal 1, leaf := 0x1000033 }
def at2 : Place := { loc := .gen 0x1010000 .append 2, leaf := 0x1010037 }
def at3 : Place := { loc := .gen 0x1020000 .once 3, leaf := 0x102003B }
def at4 : Place := { loc := .gen 0x1030000 .device 0, leaf := 0x103003F }
def at5 : Place := { loc := .spad 1 0 0 }

theorem test_meets_scalar_words : Free cpt [1, 2, 3] ∧ Free flv [0, 0, 0] ∧ Free (queued cpt (.vadd 0 8 1 (.v 2))) [9, 1] ∧
    Free cpt [1, 2] ∧ Free cpt [63] ∧ Free (queued cpt (.vredsum 0 9 1)) [8, 63] := by
  refine ⟨free_of rfl _, free_of rfl _, ?_, free_of rfl _, free_of rfl _, ?_⟩
  · refine ⟨?_, fun p hp => by cases hp⟩
    intro e he r hr
    have : entriesOf (queued cpt (.vadd 0 8 1 (.v 2))).me.queue = [entryFor cpt (.vadd 0 8 1 (.v 2))] := rfl
    rw [this, List.mem_singleton] at he
    subst he
    simp [laneWrites, entryFor] at hr
  · refine ⟨?_, fun p hp => by cases hp⟩
    intro e he r hr
    have : entriesOf (queued cpt (.vredsum 0 9 1)).me.queue = [entryFor cpt (.vredsum 0 9 1)] := rfl
    rw [this, List.mem_singleton] at he
    subst he
    have : r = 9 := by simpa [laneWrites, entryFor] using hr
    subst this
    exact .inr (by decide)

/-- The last word of the generic space, the first address beyond it, an odd address. -/
theorem test_meets_register_jumps :
    (let s := withRegs cpt [(1, 0xFFFFFFFFFFFC)]; Free s [1, 63] ∧ (s.rd 1).toNat < 2 ^ 48 ∧ (s.rd 1).toNat % 4 = 0) ∧
    (let s := withRegs cpt [(1, 0x1000000000000)]; Free s [1, 63] ∧ Idle s ∧ 2 ^ 48 ≤ (s.rd 1).toNat) ∧
    (let s := withRegs cpt [(1, 1)]; Free s [1, 63] ∧ Idle s ∧ ¬ 2 ^ 48 ≤ (s.rd 1).toNat ∧ (s.rd 1).toNat % 4 ≠ 0) := by
  refine ⟨⟨free_of rfl _, ?_, ?_⟩, ⟨free_of rfl _, idle_of rfl, ?_⟩, free_of rfl _, idle_of rfl, ?_, ?_⟩ <;> decide +kernel

/-- Loads from a NORMAL page, at the ends of the immediate too, from a DEVICE page and from scratchpad, and from a Fliven strand. -/
theorem test_meets_loads : Free cpt [9, 1] ∧ cpt.me.ord.path = [] ∧
    (∀ p ∈ loadRules, check (touch cpt cpt.agent (scaled cpt 1 0 p.2.1)) cpt.agent .load (scaled cpt 1 0 p.2.1) p.2.1 p.2.1 = .ok at1 ∧
      check (touch cpt cpt.agent (scaled cpt 4 0 p.2.1)) cpt.agent .load (scaled cpt 4 0 p.2.1) p.2.1 p.2.1 = .ok at4 ∧
      check (touch cpt cpt.agent (scaled cpt 5 0 p.2.1)) cpt.agent .load (scaled cpt 5 0 p.2.1) p.2.1 p.2.1 = .ok at5 ∧
      (let s := withRegs flv [(1, 0x10000 + BitVec.ofNat 64 (512 * p.2.1))]
       check (touch s s.agent (scaled s 1 (-512) p.2.1)) s.agent .load (scaled s 1 (-512) p.2.1) p.2.1 p.2.1 = .ok at1) ∧
      check (touch cpt cpt.agent (scaled cpt 1 511 p.2.1)) cpt.agent .load (scaled cpt 1 511 p.2.1) p.2.1 p.2.1
        = .ok { at1 with loc := at1.loc.plus (511 * p.2.1) }) ∧
    check (touch cpt cpt.agent (cpt.rd 1)) cpt.agent .load (cpt.rd 1) 8 8 = .ok at1 ∧
    check (touch cpt cpt.agent (cpt.rd 1)) cpt.agent .load (cpt.rd 1) 4 4 = .ok at1 := by
  refine ⟨free_of rfl _, rfl, ?_, ?_, ?_⟩ <;> decide +kernel

theorem test_meets_stores : Free cpt [7, 1] ∧ calmB cpt = true ∧
    (∀ p ∈ storeRules, check (touch cpt cpt.agent (scaled cpt 1 0 p.2)) cpt.agent .store (scaled cpt 1 0 p.2) p.2 p.2 = .ok at1 ∧
      check (touch cpt cpt.agent (scaled cpt 5 0 p.2)) cpt.agent .store (scaled cpt 5 0 p.2) p.2 p.2 = .ok at5 ∧
      check (touch cpt cpt.agent (scaled cpt 4 0 p.2)) cpt.agent .store (scaled cpt 4 0 p.2) p.2 p.2 = .ok at4) ∧
    check (touch cpt cpt.agent (cpt.rd 1)) cpt.agent .store (cpt.rd 1) 8 8 = .ok at1 ∧
    check (touch cpt cpt.agent (cpt.rd 1)) cpt.agent .store (cpt.rd 1) 4 4 = .ok at1 := by
  refine ⟨free_of rfl _, ?_, ?_, ?_, ?_⟩ <;> decide +kernel

/-- A page without a translation, an address that no form has, and a store to an APPEND page. -/
theorem test_meets_first_faults :
    (∀ p ∈ loadRules, ∀ x ∈ [((0x60000 : Word), Cause.notPresent), (0x1000000000000, .protection)], let s := withRegs cpt [(1, x.1)]
      Idle s ∧ check (touch s s.agent (scaled s 1 0 p.2.1)) s.agent .load (scaled s 1 0 p.2.1) p.2.1 p.2.1
        = .error { cause := x.2, addr := x.1 }) ∧
    ∀ p ∈ storeRules, Idle cpt ∧ check (touch cpt cpt.agent (scaled cpt 2 0 p.2)) cpt.agent .store (scaled cpt 2 0 p.2) p.2 p.2
      = .error { cause := .pageType, addr := 0x20000 } := by
  have h : ∀ p ∈ loadRules, ∀ x ∈ [((0x60000 : Word), Cause.notPresent), (0x1000000000000, .protection)], let s := withRegs cpt [(1, x.1)]
    check (touch s s.agent (scaled s 1 0 p.2.1)) s.agent .load (scaled s 1 0 p.2.1) p.2.1 p.2.1
      = .error { cause := x.2, addr := x.1 } := by decide +kernel
  refine ⟨fun p hp x hx => ⟨idle_of rfl, h p hp x hx⟩, fun p hp => ⟨idle_of rfl, ?_⟩⟩
  revert p; decide +kernel

theorem test_meets_amos : (∀ p ∈ amoRules, Free cpt ([9, 1, 7] ++ if p.2.1 then [7 + 1] else [])) ∧
    cpt.me.ord.path = [] ∧ cpt.me.ord.relFence = none ∧
    check (touch cpt cpt.agent (cpt.rd 1)) cpt.agent .amo (cpt.rd 1) 8 8 = .ok at1 ∧
    check (touch cpt cpt.agent (cpt.rd 5)) cpt.agent .amo (cpt.rd 5) 8 8 = .ok at5 := by
  refine ⟨fun p _ => free_of rfl _, rfl, rfl, ?_, ?_⟩ <;> decide +kernel

/-- The work of the engines left to the agenda. -/
def late (s : State) : State := { s with later := true }

theorem test_meets_waiting :
    let s := late cpt
    let y : PendAccess := { loc := at1.loc, data := [1, 2], rt := .own }
    let z : PendAccess := { loc := at5.loc, data := [], rt := .own, load := some ⟨9, 8, true⟩ }
    let u : State := { s with agenda := [.perform 0 1, .advance 1], me := { s.me with ord := { path := [y, z] } } }
    let v : State := { u with me := { u.me with ord := { path := [y, y] } } }
    (∀ p ∈ storeRules, Free s [7, 1] ∧ s.later = true ∧ (∀ pa ty g, at1.loc = .gen pa ty g → ty = .normal ∨ ty = .device) ∧
      s.me.ord.relFence = none ∧
      check (touch s s.agent (scaled s 1 0 p.2)) s.agent .store (scaled s 1 0 p.2) p.2 p.2 = .ok at1) ∧
    (∀ p ∈ loadRules, check (touch s s.agent (scaled s 1 0 p.2.1)) s.agent .load (scaled s 1 0 p.2.1) p.2.1 p.2.1 = .ok at1) ∧
    (u.agenda = .perform u.key 1 :: [.advance 1] ∧ u.me.ord.path[1]? = some z ∧ ∀ x ∈ u.me.ord.path.take 1, ¬ ComesAfter z x) ∧
    (v.me.ord.path[1]? = some y ∧ ∃ x ∈ v.me.ord.path.take 1, ComesAfter y x) ∧
    z ∈ u.me.ord.path ∧ z.load = some ⟨9, 8, true⟩ := by
  intro s y z u v
  have h : ∀ p ∈ storeRules, check (touch s s.agent (scaled s 1 0 p.2)) s.agent .store (scaled s 1 0 p.2) p.2 p.2 = .ok at1 := by
    decide +kernel
  have k : ∀ p ∈ loadRules, check (touch s s.agent (scaled s 1 0 p.2.1)) s.agent .load (scaled s 1 0 p.2.1) p.2.1 p.2.1 = .ok at1 := by
    decide +kernel
  refine ⟨fun p hp => ⟨free_of rfl _, rfl, fun pa ty g e => ?_, rfl, h p hp⟩, k, ⟨rfl, rfl, ?_⟩, ⟨rfl, y, ?_, .inr (.inr (.inl ?_))⟩, ?_, rfl⟩
  · simp [at1] at e; exact .inl e.2.1.symm
  · intro x hx
    obtain rfl : x = y := by simpa [u] using hx
    rintro (h | h | h | ⟨⟨_, _, h⟩, _⟩)
    · cases h
    · exact absurd h.2 (by decide)
    · exact absurd h (by decide)
    · cases h
  all_goals decide +kernel

/-- Stores to a DEVICE page, the three events at a barrier at the bounds of their counts, and a STO and an AMO that are releases, all left
pending. -/
theorem test_meets_releases_waiting :
    (let s := late cpt
     Free s [7, 4] ∧ (∀ p ∈ storeRules, check (touch s s.agent (scaled s 4 0 p.2)) s.agent .store (scaled s 4 0 p.2) p.2 p.2 = .ok at4) ∧
     (∀ pa ty g, at4.loc = .gen pa ty g → ty = .normal ∨ ty = .device) ∧ NoLoads s ∧
     check (touch s s.agent (s.rd 1)) s.agent .store (s.rd 1) 8 8 = .ok at1 ∧ check (touch s s.agent (s.rd 1)) s.agent .amo (s.rd 1) 8 8 = .ok at1) ∧
    ∀ x ∈ [1, 65535, 2147483647], let s := late (withRegs cpt [(8, BitVec.ofNat 64 x)])
      Free s [7, 5] ∧ Free s [8, 9] ∧ s.later = true ∧ s.me.fliven = false ∧ barrierTrap s s.agent (s.rd 5) = .ok (0, 0) ∧
      (s.rd 8).toNat = x ∧ x < 2 ^ 31 := by
  refine ⟨⟨free_of rfl _, ?_, fun pa ty g e => ?_, ⟨fun _ h => (nomatch h), ?_, ?_⟩⟩, fun x hx => ⟨free_of rfl _, free_of rfl _, rfl, rfl, ?_⟩⟩
  · decide +kernel
  · simp [at4] at e; exact .inr e.2.1.symm
  · decide +kernel
  · decide +kernel
  · revert x; decide +kernel

/-- An untracked line that a release of core 9 covers, at scopes that include both cores and in a cluster that does not; a strand
whose vector memory is done. -/
theorem test_meets_fence_and_vdrain :
    (let s := cpt.modCore 0 fun x => { x with l1 := [(0x20000, { own := false, dirty := 0, data := List.replicate 128 0, time := 0 })] }
     let y : SigLine := { line := 0x20000 }
     let r : Release := { unit := 9, scope := .die, lines := [y] }
     let s := { s with me := { s.me with ord := { readSig := [r] } } }
     s.me.ord.path = [] ∧ s.me.ord.relFence = none ∧ Scope.device ≠ .core ∧ s.agent.core = some 0 ∧ (s.core 0).l1.map Prod.fst = [0x20000] ∧
     r ∈ s.me.ord.readSig ∧ scopeIncludes r.scope r.unit 0 = true ∧ scopeIncludes .device 0 r.unit = true ∧ y ∈ r.lines ∧
     scopeIncludes y.reach y.unit 0 = true ∧ scopeIncludes .cluster 0 r.unit = false) ∧
    (∀ e ∈ entriesOf cpt.me.queue, drainsWith e.instr = false) ∧
    (∀ c ∈ cpt.cores, ∀ m ∈ c.2.redMsgs, m.strand ≠ cpt.me.sid) := by decide +kernel

/-- An undecided, a decided, a cleared and a stale cell. -/
theorem test_meets_decide_once : ∀ o ∈ [({} : OncePage), { cells := [(0, 7)] }, { clearing := true }, { gen := 1 }],
    let s := { cpt with onces := [(0x102, o)] }; let u := touch s s.agent (s.rd 3)
    s.me.ord.path = [] ∧ Free s [9, 10, 3, 7] ∧ check u s.agent (.onceOp true) (s.rd 3) 16 16 = .ok at3 ∧
    check u s.agent (.onceOp false) (s.rd 3) 16 16 = .ok at3 ∧ at3.loc.pa / 0x10000 = 0x102 ∧
    ((Map.get? u.onces 0x102).any fun x => !x.clearing && x.gen == at3.gen) = (!o.clearing && o.gen == 0) := by
  have h : ∀ o ∈ [({} : OncePage), { cells := [(0, 7)] }, { clearing := true }, { gen := 1 }],
    let s := { cpt with onces := [(0x102, o)], me := cpt.me }; let u := touch s s.agent (s.rd 3)
    check u s.agent (.onceOp true) (s.rd 3) 16 16 = .ok at3 ∧
    check u s.agent (.onceOp false) (s.rd 3) 16 16 = .ok at3 ∧ at3.loc.pa / 0x10000 = 0x102 ∧
    ((Map.get? u.onces 0x102).any fun x => !x.clearing && x.gen == at3.gen) = (!o.clearing && o.gen == 0) := by decide +kernel
  exact fun o ho => ⟨rfl, free_of rfl _, h o ho⟩

/-- A decided cell of which die 0 holds a copy. -/
theorem test_meets_cell_copy :
    let s := keepCell 0 0x102000 { cpt with onces := [(0x102, { cells := [(0, 7)] })] }; let u := touch s s.agent (s.rd 3)
    s.me.ord.path = [] ∧ check u s.agent (.onceOp true) (s.rd 3) 16 16 = .ok at3 ∧ Claim.copyOf u at3 = some 7 ∧ s.me = cpt.me := by
  decide +kernel

/-! The control thread. -/

/-- The privilege level, the length of the queue of records, the contents of memory, of one core, of the parts of partition 0. -/
def atLevel (s : State) (lv : Level) : State := { s with me := { s.me with level := lv } }
def withPart (s : State) (p : Part) : State := { s with parts := [(0, p)] }
def withBytes (s : State) (pa n x : Nat) : State := { s with mem := s.mem.write pa (bytesOfNat n x) }

theorem test_meets_issue_and_time : Free cpt [9] ∧ Free cpt [7] ∧ (cpt.rd 0).toNat ≤ cpt.now ∧ cpt.now < (cpt.rd 8).toNat ∧
    cpt.me.fliven = false := by
  refine ⟨free_of rfl _, free_of rfl _, ?_, ?_, rfl⟩ <;> decide +kernel

/-- With the record queue full, the record waits. -/
theorem test_meets_compute_stops : cpt.me.fliven = false ∧
    (let s := withPart cpt { frqsize := 16, frqtail := 3, frqhead := 2 ^ 32 - 13 }
     s.me.fliven = false ∧ (s.part s.me.id.pid).frqsize ≤ ((s.part s.me.id.pid).frqtail + 2 ^ 32 - (s.part s.me.id.pid).frqhead) % 2 ^ 32) := by
  refine ⟨rfl, rfl, ?_⟩; decide +kernel

/-- A Fliven strand outside and inside its handler, stopped by a second fault, and with an EPC that is good, beyond the generic space,
odd. -/
theorem test_meets_fliven_traps : flv.me.fliven = true ∧ flv.me.fl.trapped = false ∧ Idle flv ∧ flv.me.level = .f ∧
    flv.me.fl.epc.toNat < 2 ^ 48 ∧ flv.me.fl.epc.toNat % 4 = 0 ∧
    (let s := { flv with me := { flv.me with fl := { trapped := true, dead := some 1, epc := 0x1000000000000 } } }
     s.me.fliven = true ∧ s.me.fl.trapped = true ∧ s.key = 1024 + 0 ∧ s.me.fl.dead = some 1 ∧ 2 ^ 48 ≤ s.me.fl.epc.toNat) ∧
    (let s := { flv with me := { flv.me with fl := { epc := 2 } } }
     s.me.fliven = true ∧ Idle s ∧ s.me.level = .f ∧ s.me.fl.epc.toNat % 4 ≠ 0) := by
  refine ⟨rfl, rfl, idle_of rfl, rfl, ?_, ?_, ⟨rfl, rfl, rfl, rfl, ?_⟩, rfl, idle_of rfl, rfl, ?_⟩ <;> decide +kernel

/-- TRAP with nothing queued, with an entry left to the agenda, behind an entry that faults (a compare of differing tags), and behind one that
ends. -/
theorem test_meets_traps : Idle cpt ∧ cpt.me.fliven = false ∧ Idle flv ∧
    (let s := late (queued cpt (.vadd 0 8 1 (.v 2))); ¬ Idle s ∧ s.later = true) ∧
    (let s := queued cpt (.vseq 0 1 1 (.v 3)); ¬ Idle s ∧ s.later = false ∧ (runQueue (drainLoads s)).me.status = .stopped ∧
      (runQueue (drainLoads (keeps s 1 { cause := .break_ }))).me.status = .stopped) ∧
    (let s := queued cpt (.vadd 0 8 1 (.v 2)); let u := runQueue (drainLoads (keeps s 1 { cause := .break_ }))
     ¬ Idle s ∧ s.later = false ∧ u.me.status ≠ .stopped ∧ Idle u) := by
  have busy : ∀ i, ¬ Idle (queued cpt i) := fun i h =>
    absurd h (by simp [Idle, queued, pushEntry, State.modMe, State.retire, State.goto, entriesOf, cpt, withRegs])
  exact ⟨idle_of rfl, rfl, idle_of rfl, ⟨busy _, rfl⟩, ⟨busy _, rfl, by decide +kernel, by decide +kernel⟩,
    busy _, rfl, by decide +kernel, idle_of (by decide +kernel) (by decide +kernel)⟩

theorem test_meets_exit : Idle flv ∧ flv.me.fliven = true ∧ Idle cpt ∧ cpt.me.fliven = false ∧
    (∃ x l, cpt.gang? cpt.me.id.gang = some x ∧ x.state ≠ .ended ∧ Map.get? cpt.launches x.launch = some l) ∧
    ∀ p ∈ cpt.others, p.2.fliven = true ∨ p.2.id.gang ≠ cpt.me.id.gang ∨ p.2.status = .exited ∨ p.2.status = .absent := by
  refine ⟨idle_of rfl, rfl, idle_of rfl, rfl, ⟨_, _, rfl, ?_, rfl⟩, ?_⟩
  · decide
  · intro p hp
    cases hp

/-- Gate 3 of the table at 0x10000 admits level K and sets PD and FD. -/
def gated : State := withBytes (withPart cpt { gtbase := 0x10000 }) 0x1000030 16 (0x50000 + 5 * 2 ^ 64 + 3 * 2 ^ 72 + 8 * 2 ^ 80)

theorem test_meets_gates :
    (gated.me.fliven = false ∧ Idle gated ∧
      gateEntry gated (3 : BitVec 12).toNat = ((gateEntry gated 3).1, .ok (bytesOfNat 16 (0x50000 + 5 * 2 ^ 64 + 3 * 2 ^ 72 + 8 * 2 ^ 80))) ∧
      Admits (bytesOfNat 16 (0x50000 + 5 * 2 ^ 64 + 3 * 2 ^ 72 + 8 * 2 ^ 80)) gated.me.level) ∧
    (let s := { atLevel cpt .l with me := { cpt.me with level := .l, glevel := .l, glink := 0x10004 } }
     s.me.fliven = false ∧ Idle s ∧ s.me.level ≠ .k ∧ s.me.level.num ≤ s.me.glevel.num ∧ s.me.glink.toNat < 2 ^ 48 ∧
       s.me.glink.toNat % 4 = 0 ∧ (s.gang? s.me.id.gang).all (fun g => g.stopReq == none) = true) ∧
    (let s := { cpt with me := { cpt.me with level := .l, glevel := .s } }
     s.me.fliven = false ∧ Idle s ∧ s.me.glevel.num < s.me.level.num) ∧ cpt.me.level = .k := by
  refine ⟨⟨rfl, idle_of rfl, Prod.ext rfl ?_, ⟨?_, ?_, ?_⟩⟩, ⟨rfl, idle_of rfl, ?_, ?_, ?_, ?_, ?_⟩, ⟨rfl, idle_of rfl, ?_⟩, rfl⟩
  all_goals decide +kernel

/-- SETVL; STRIP with nothing left (the count is the grant) and with elements left. -/
theorem test_meets_grants : cpt.me.fliven = false ∧ Settled cpt ∧ Free cpt [9, 1] ∧ Settled (queued cpt (.vadd 0 8 1 (.v 2))) ∧
    (let s := withRegs cpt [(10, 4)]; (s.rd 10).toNat - s.me.v.vl = 0 ∧ Free s ((List.range 5).map fun i => 10 + BitVec.ofNat 6 i)) ∧
    (let s := withRegs cpt [(10, 5)]; (s.rd 10).toNat - s.me.v.vl ≠ 0 ∧ Free s ((List.range 5).map fun i => 10 + BitVec.ofNat 6 i)) := by
  refine ⟨rfl, .inl rfl, free_of rfl _, .inr ⟨_, _, rfl⟩, ⟨?_, free_of rfl _⟩, ?_, free_of rfl _⟩ <;> decide +kernel

/-- The allotment of 160 slots meets both directions at 10, and each wrong direction at its neighbour. -/
theorem test_meets_allotment : cpt.me.fliven = false ∧ Idle cpt ∧ cpt.me.v.valc ≤ 16 * (10 : BitVec 6).toNat ∧
    16 * (9 : BitVec 6).toNat < cpt.me.v.valc ∧ 16 * (10 : BitVec 6).toNat ≤ cpt.me.v.valc ∧ cpt.me.queue = [] ∧
    cpt.me.v.valc < 16 * (11 : BitVec 6).toNat := by
  refine ⟨rfl, idle_of rfl, ?_, ?_, ?_, rfl, ?_⟩ <;> decide +kernel

/-- The writes of R195 at the last value that is allowed and at the first that is not. -/
theorem test_meets_control_registers : Idle cpt ∧ Idle flv ∧ cpt.me.fliven = false ∧ cpt.me.level = .k ∧
    (∀ p ∈ controlMap cpt, (BitVec.ofNat 12 p.1).toNat = p.1) ∧
    ((0x007 : BitVec 12).toNat ∉ (controlMap cpt).map Prod.fst ∧ (0x012 : BitVec 12).toNat ∉ controlWrites.map fun p => p.1) ∧
    (flv.me.fliven = true ∧ ¬ (flv.me.fliven = true → (0x010 : BitVec 12).toNat ∈ [0x030, 0x027, 0x013])) ∧
    (∃ p ∈ controlWrites, (0x010 : BitVec 12).toNat = p.1 ∧ p.2.1 0x11FFC ∧ ¬ p.2.1 0x11FFD ∧ ¬ p.2.1 0x2000) ∧
    (∃ p ∈ controlWrites, (0x011 : BitVec 12).toNat = p.1 ∧ p.2.1 0xFFFFFFFF ∧ ¬ p.2.1 0x100000000) ∧
    (∃ p ∈ controlWrites, (0x014 : BitVec 12).toNat = p.1 ∧ p.2.1 0xFFFFFFFFFFFC ∧ ¬ p.2.1 2 ∧ ¬ p.2.1 0x1000000000000) ∧
    (∃ p ∈ controlWrites, (0x015 : BitVec 12).toNat = p.1 ∧ p.2.1 0xFFFFFFFFFFFC ∧ ¬ p.2.1 2 ∧ ¬ p.2.1 0x1000000000000) ∧
    ∃ p ∈ controlWrites, (0x016 : BitVec 12).toNat = p.1 ∧ p.2.1 3 ∧ ¬ p.2.1 4 := by
  refine ⟨idle_of rfl, idle_of rfl, rfl, rfl, ?_, ?_, ⟨rfl, ?_⟩, ⟨_, List.mem_of_getElem? (i := 0) rfl, rfl, ?_⟩,
    ⟨_, List.mem_of_getElem? (i := 1) rfl, rfl, ?_⟩, ⟨_, List.mem_of_getElem? (i := 3) rfl, rfl, ?_⟩,
    ⟨_, List.mem_of_getElem? (i := 4) rfl, rfl, ?_⟩, ⟨_, List.mem_of_getElem? (i := 5) rfl, rfl, ?_⟩⟩
  all_goals (try dsimp only)
  all_goals decide +kernel

/-! Homes: append pages, once pages, barriers, sync registers, queues. -/

def withApp (s : State) (p : AppPage) : State := { s with apps := [(0x101, p)] }

/-- APP with the last room there is and without room, and on a page that is sealed. -/
theorem test_meets_app : calmB cpt = true ∧ Free cpt [9, 2, 7] ∧ cpt.me.wait.mark = none ∧ Idle cpt ∧
    ∀ p ∈ [({ tail := 65528 } : AppPage), { tail := 65536 }, { state := .sealed_, tail := 8 }],
      let u := touch (withApp cpt p) (withApp cpt p).agent ((withApp cpt p).rd 2)
      check u (withApp cpt p).agent (.appendOp true) ((withApp cpt p).rd 2) 1 1 = .ok at2 ∧ at2.loc.pa / 65536 = 0x101 ∧ u.app 0x101 = p := by
  refine ⟨?_, free_of rfl _, rfl, idle_of rfl, ?_⟩ <;> decide +kernel

/-- APPAT below, above and at the tail, and on a sealed page at its tail. -/
theorem test_meets_appat : ∀ c ∈ [(({ tail := 16 } : AppPage), 8), ({ tail := 0 }, 8), ({ tail := 8 }, 8), ({ state := .sealed_, tail := 8 }, 8)],
    let s := withRegs (withApp cpt c.1) [(2, 0x20000 + BitVec.ofNat 64 c.2)]
    let u := touch s s.agent (s.rd 2)
    check u s.agent (.appendOp true) (s.rd 2) 8 8 = .ok { at2 with loc := at2.loc.plus 8 } ∧ (s.rd 2).toNat % 65536 = c.2 ∧ u.app 0x101 = c.1 := by
  decide +kernel

theorem test_meets_seal_and_appmark : Free cpt [9, 2] ∧ cpt.me.ord.path = [] ∧
    ∀ p ∈ [({ tail := 8 } : AppPage), { state := .sealed_ }, { state := .sealing, pending := [{ off := 0, data := [1], strand := 0, seq := 0 }] },
        { state := .releasing }],
      let s := withApp cpt p
      let u := touch s s.agent (s.rd 2)
      u.app 0x101 = p ∧ (p.state ≠ .releasing → check u s.agent (.appendOp true) (s.rd 2) 1 1 = .ok at2 ∧
        check u s.agent (.appendOp false) (s.rd 2) 1 1 = .ok at2) := by
  refine ⟨free_of rfl _, rfl, ?_⟩; decide +kernel

theorem test_meets_oclear : Idle cpt ∧ cpt.me.level = .k ∧
    (let s := atLevel { cpt with onces := [(0x102, { gen := 5, cells := [(0, 7)] })] } .l
     let u := touch s s.agent (s.rd 3)
     Free s [3] ∧ s.me.level ≠ .k ∧ s.later = false ∧ s.me.wait.mark = none ∧ (∀ p ∈ s.strands, p.2.ord.path = []) ∧
     (∀ c ∈ s.cores, c.2.chunks = []) ∧ s.shoots = [] ∧ check u s.agent .clearOp (s.rd 3) 1 1 = .ok at3 ∧
     (Map.get? s.peerHolds 0x102).getD [] = [] ∧ Map.get? u.apps 0x102 = none ∧ (u.once 0x102).clearing = false) := by
  refine ⟨idle_of rfl, rfl, free_of rfl _, ?_, rfl, rfl, ?_, ?_, rfl, ?_, rfl, ?_, ?_⟩ <;> decide +kernel

/-- ABINIT with 1 and with 65,535 arrivals, ABEXPECT of no byte and of 2^31 − 1. -/
theorem test_meets_barriers_set_up : cpt.me.fliven = false ∧ calmB cpt = true ∧ Free cpt [5, 8] ∧
    barrierTrap cpt cpt.agent (cpt.rd 5) = .ok (0, 0) ∧
    1 ≤ ((withRegs cpt [(8, 1)]).rd 8).toNat ∧ ((withRegs cpt [(8, 65535)]).rd 8).toNat ≤ 65535 ∧
    ((withRegs cpt [(8, 0)]).rd 8).toNat < 2 ^ 31 ∧ ((withRegs cpt [(8, 0x7FFFFFFF)]).rd 8).toNat < 2 ^ 31 := by
  refine ⟨rfl, ?_, free_of rfl _, ?_, ?_, ?_, ?_, ?_⟩ <;> decide +kernel

/-- The scratchpad of core 0 of the gang. -/
def withSpad (s : State) (m : Mem) : State := s.modGang 1 fun g => { g with spads := [(0, m)] }

/-- A barrier of the other phase, one broken with and without lost bytes, one that is waited for. -/
theorem test_meets_barriers_awaited : Free cpt [5, 8, 9] ∧ Free cpt [5, 0, 9] ∧
    (∀ m ∈ [([] : Mem), [(11, 0x80)], [(11, 0xC0)], [(8, 1)]], barrierTrap (withSpad cpt m) (withSpad cpt m).agent ((withSpad cpt m).rd 5) = .ok (0, 0)) ∧
    (let x := barrierIn cpt (.spad cpt.me.id.gang 0 0); x.gen % 2 ≠ (cpt.rd 8).toNat % 2) ∧
    (∀ m ∈ [([(11, 0x80)] : Mem), [(11, 0xC0)]], let s := withSpad cpt m; let x := barrierIn s (.spad s.me.id.gang 0 0)
      x.gen % 2 = (s.rd 0).toNat % 2 ∧ x.broken = true ∧ x.lost = (m == [(11, 0xC0)])) ∧ Idle cpt ∧
    (let x := barrierIn cpt (.spad cpt.me.id.gang 0 0)
     x.gen % 2 = (cpt.rd 0).toNat % 2 ∧ x.broken = false ∧ cpt.me.wto = 0) := by
  refine ⟨free_of rfl _, free_of rfl _, ?_, ?_, ?_, idle_of rfl, ?_⟩ <;> decide +kernel

/-- An allotment of 16 sync registers from 0: the last one, the first outside, and numbers beyond 16,383. -/
theorem test_meets_sync_registers :
    let s := withPart { cpt with syncs := [(15, { val := 5 })] } { sralloc := 0x100000 }
    let al := (s.part s.me.part).sralloc.toNat
    let mine := fun n => n < 16384 ∧ (n + 16384 - al % 16384) % 16384 < al / 2 ^ 16 % 2 ^ 15
    Free s [9, 10, 11] ∧ calmB s = true ∧ NoReleases s ∧ Idle s ∧ mine ((withRegs s [(10, 15)]).rd 10).toNat ∧ ¬ mine ((withRegs s [(10, 16)]).rd 10).toNat ∧
    ¬ mine ((withRegs s [(10, 16384)]).rd 10).toNat ∧
    ((withRegs s [(11, 5)]).rd 11).toNat ≤ (syncAt s (dieOfKey s.key) 15).toNat ∧
    (syncAt s (dieOfKey s.key) 15).toNat < ((withRegs s [(11, 6)]).rd 11).toNat ∧ s.me.wto = 0 := by
  refine ⟨free_of rfl _, ?_, no_releases_of, idle_of rfl, ?_, ?_, ?_, ?_, ?_, rfl⟩ <;> decide +kernel

/-- The descriptors lie from 0x2000000 up; queue 4 is a ring of two slots from 0x50000 up and runs. -/
def ringed (s : State) : State :=
  withBytes (withPart s { savebase := 0x2000000, qopen := 0x10 }) 0x2000100 16 (0x50000 + 2 * 2 ^ 64 + 2 ^ 96)

theorem test_meets_enq : let s := ringed cpt
    let r := readPieces s.agent .own at1.loc 16 (touch s s.agent (s.rd 1))
    let d := descOf r.1 s.me.part (s.rd 7).toNat
    let w := touch r.1 (dispatchAgent r.1 s.me.part) (d.slot d.widx)
    Free s [7, 1] ∧ s.me.ord.path = [] ∧ (s.rd 7).toNat < 64 ∧ openToEnq s s.me.part (s.rd 7).toNat = true ∧ (s.rd 1).toNat % 128 = 0 ∧
    check (touch s s.agent (s.rd 1)) s.agent .load (s.rd 1) 128 128 = .ok at1 ∧ d.filled < d.size ∧
    check w (dispatchAgent r.1 s.me.part) .hwWrite (d.slot d.widx) 128 128
      = .ok { loc := .gen 0x1040000 .normal 1, leaf := 0x1040033 } ∧
    0x1040000 + 128 ≤ descAddr s s.me.part (s.rd 7).toNat := by
  refine ⟨free_of rfl _, rfl, ?_, ?_, ?_, ?_, ?_, ?_, ?_⟩ <;> decide +kernel

theorem test_meets_cdrain : cpt.me.fliven = false ∧ cpt.me.queue = [] ∧ cpt.me.status = .ready ∧ (cpt.core cpt.myCore).chunks = [] ∧
    (Map.getD (cpt.core cpt.myCore).chans ((7 : BitVec 6).toNat % 8) {}).lost = false ∧
    (let s := cpt.modCore 0 fun x => { x with chans := [(7, { lost := true })] }
     (s.core s.myCore).chunks = [] ∧ (Map.getD (s.core s.myCore).chans ((7 : BitVec 6).toNat % 8) {}).lost = true) := by
  refine ⟨rfl, rfl, rfl, ?_, ?_, ?_⟩ <;> decide +kernel

/-! The privileged words. -/

theorem test_meets_system_registers : Idle flv ∧ flv.me.level.num ≤ 1 ∧ flv.me.level = .f ∧ (atLevel flv .s).me.level = .s ∧
    (atLevel flv .s).me.level.num ≤ 1 ∧ 2 ≤ cpt.me.level.num ∧ cpt.me.level ≠ .f ∧ (∀ p ∈ systemMap flv, (BitVec.ofNat 12 p.1).toNat = p.1) ∧
    (∃ p ∈ systemWrites flv, (0x101 : BitVec 12).toNat = p.1 ∧ p.2.1 = true ∧ p.2.2 0xFFFF ∧ ¬ p.2.2 0x10000) ∧
    (∃ p ∈ systemWrites flv, (0x103 : BitVec 12).toNat = p.1 ∧ p.2.1 = true ∧ p.2.2 3 ∧ ¬ p.2.2 4) ∧
    (∃ p ∈ systemWrites flv, (0x104 : BitVec 12).toNat = p.1 ∧ p.2.1 = true ∧ p.2.2 0xFFFFFFFFFFFC ∧ ¬ p.2.2 2) ∧
    (∃ p ∈ systemWrites flv, (0x105 : BitVec 12).toNat = p.1 ∧ p.2.1 = true ∧ p.2.2 0 ∧ ¬ p.2.2 1) ∧
    (∃ p ∈ systemWrites flv, (0x110 : BitVec 12).toNat = p.1 ∧ p.2.1 = false ∧ p.2.2 0xFFFFFFFFC000 ∧ ¬ p.2.2 0x2000) ∧
    (∃ p ∈ systemWrites flv, (0x111 : BitVec 12).toNat = p.1 ∧ p.2.1 = false ∧ p.2.2 0xFFFFFFFFFFC0 ∧ ¬ p.2.2 0x20) ∧
    (∃ p ∈ systemWrites flv, (0x115 : BitVec 12).toNat = p.1 ∧ p.2.1 = false ∧ p.2.2 1000000 ∧ ¬ p.2.2 1000001) ∧
    (∃ p ∈ systemWrites flv, (0x116 : BitVec 12).toNat = p.1 ∧ p.2.1 = false ∧ p.2.2 10000 ∧ p.2.2 1000000000 ∧ ¬ p.2.2 9999 ∧
      ¬ p.2.2 1000000001) ∧
    (∃ p ∈ systemWrites flv, (0x117 : BitVec 12).toNat = p.1 ∧ p.2.1 = true ∧ p.2.2 0xFFFFFFFFFF800 ∧ ¬ p.2.2 0x400) ∧
    (∃ p ∈ systemWrites flv, (0x118 : BitVec 12).toNat = p.1 ∧ p.2.1 = true ∧ p.2.2 0x40003FFF ∧ ¬ p.2.2 0x40010000 ∧ ¬ p.2.2 0x4000) ∧
    ∃ p ∈ systemWrites flv, (0x11A : BitVec 12).toNat = p.1 ∧ p.2.1 = true ∧ p.2.2 0x7FFFFF0000 ∧ ¬ p.2.2 0x8000 := by
  refine ⟨idle_of rfl, ?_, rfl, rfl, ?_, ?_, ?_, ?_, ⟨_, List.mem_of_getElem? (i := 1) rfl, rfl, ?_⟩,
    ⟨_, List.mem_of_getElem? (i := 3) rfl, rfl, ?_⟩, ⟨_, List.mem_of_getElem? (i := 4) rfl, rfl, ?_⟩,
    ⟨_, List.mem_of_getElem? (i := 5) rfl, rfl, ?_⟩, ⟨_, List.mem_of_getElem? (i := 6) rfl, rfl, ?_⟩,
    ⟨_, List.mem_of_getElem? (i := 7) rfl, rfl, ?_⟩, ⟨_, List.mem_of_getElem? (i := 9) rfl, rfl, ?_⟩,
    ⟨_, List.mem_of_getElem? (i := 10) rfl, rfl, ?_⟩, ⟨_, List.mem_of_getElem? (i := 11) rfl, rfl, ?_⟩,
    ⟨_, List.mem_of_getElem? (i := 12) rfl, rfl, ?_⟩, ⟨_, List.mem_of_getElem? (i := 14) rfl, rfl, ?_⟩⟩
  all_goals (try dsimp only)
  all_goals decide +kernel

/-- FRQSIZE takes 16 and 65,536, not 8. -/
theorem test_meets_frqsize : ∃ p ∈ systemWrites flv, (0x112 : BitVec 12).toNat = p.1 ∧ p.2.2 16 ∧ p.2.2 65536 ∧ ¬ p.2.2 8 := by
  refine ⟨_, List.mem_of_getElem? (i := 8) rfl, rfl, ⟨⟨4, by decide⟩, rfl⟩, ⟨⟨16, by decide⟩, rfl⟩, ?_⟩
  rintro ⟨⟨k, h1, h2, h3⟩, _⟩
  interval_cases k <;> exact absurd h3 (by decide)

/-- A table of four levels from 0x800 up, with the leaf of page 1, which libraries may manage, at 0x2008. -/
def mapped (s : State) : State :=
  withBytes (withBytes (withBytes (withBytes (withPart s { troot := 0x800 }) 0x800 8 0x1001) 0x1000 8 0x1801) 0x1800 8 0x2001) 0x2008 8
    0x1000073

theorem test_meets_shoot_downs :
    ((withRegs flv [(2, 0)]).rd 2).toNat < 4 ∧ ((withRegs flv [(2, 3)]).rd 2).toNat < 4 ∧ flv.me.level.num ≤ 1 ∧ Free flv [1, 2] ∧
    (let s := withRegs flv [(1, 0x60000), (2, 1)]
     s.me.level.num ≤ 2 ∧ Free s [9, 1, 2] ∧ s.me.wait.mark = none ∧ s.shoots = [] ∧ s.rd 2 = 1 ∧ leafOf s (s.rd 1).toNat = none) ∧
    (let s := withRegs (mapped flv) [(1, 0x10000), (2, 1)]
     (calmB s = true ∧ s.me.wait.mark = none ∧ s.shoots = [] ∧ (∀ p ∈ s.strands, p.2.ord.path = []) ∧
      (∀ c ∈ s.cores, c.2.chunks = []) ∧ s.apps = [] ∧ s.peerHolds = [] ∧ s.streams = []) ∧
     leafOf s (s.rd 1).toNat = some (0x2008, 0x1000073, 0) ∧ s.rd 2 = 1 ∧ s.rd 0 = 0 ∧ s.me.level ≠ .l ∧
     leafGood s s.me.part (0x2008, 0x1000073, 0) = true ∧ 0x1000073 / 64 % 2 = 1) := by
  refine ⟨?_, ?_, ?_, free_of rfl _, ⟨?_, free_of rfl _, ?_⟩, ?_, ?_, ?_, ?_, ?_, ?_, ?_⟩ <;> decide +kernel

/-- The stopped strand of core 1, slot 0, alone in its gang. -/
def stopped4 : Strand := { cpt.me with status := .stopped, stopSeq := 3, stopped := some { cause := .fp } }

def serving : State :=
  { withRegs flv [(1, 0x10000), (2, 0x30004), (3, 0x20004), (4, 1), (5, 0x3000C)] with others := [(4, stopped4)], gangs := cpt.gangs }

theorem test_meets_record_queue : flv.me.level.num ≤ 1 ∧ Free serving [9, 10, 1, 4] ∧ (serving.rd 1).toNat % 64 = 0 ∧
    check (touch serving serving.agent (serving.rd 1)) serving.agent .store (serving.rd 1) 64 64 = .ok at1 ∧
    (serving.part serving.me.part).frqhead = (serving.part serving.me.part).frqtail ∧ serving.me.ord.path = [] ∧
    (let s := withPart serving { frqbase := 0x50000, frqtail := 1 }
     check (touch s s.agent (s.rd 1)) s.agent .store (s.rd 1) 64 64 = .ok at1 ∧
     (s.part s.me.part).frqhead ≠ (s.part s.me.part).frqtail ∧ (s.part s.me.part).held = [] ∧ s.me.ord.path = [] ∧
     (frqRead (touch s s.agent (s.rd 1)) s.me.part).2 = .ok (List.replicate 64 0)) := by
  refine ⟨?_, free_of rfl _, ?_, ?_, rfl, rfl, ?_⟩ <;> decide +kernel

/-- Handles: of the stopped strand, of an older stop of it, of no strand, and out of form. -/
theorem test_meets_halt_and_resume : serving.me.wait.mark = none ∧
    (let h := (serving.rd 2).toNat
     h < 2 ^ 48 ∧ h / 2 ^ 13 % 8 = 0 ∧ h / 2 ^ 10 % 8 = serving.me.part ∧ serving.strand? (h % 1024) = some stopped4 ∧ h % 1024 ≠ serving.key ∧
     stopped4.stopSeq = h / 2 ^ 16 ∧ stopped4.traph = 0 ∧ serving.rd 4 = 1) ∧
    (let h := (serving.rd 3).toNat; h % 1024 = 4 ∧ stopped4.stopSeq ≠ h / 2 ^ 16 ∧ h / 2 ^ 16 ≠ 0) ∧
    serving.strand? ((serving.rd 5).toNat % 1024) = none ∧ (serving.rd 4).toNat ≤ 3 ∧
    ((withRegs serving [(2, 0x2000)]).rd 2).toNat / 2 ^ 13 % 8 ≠ 0 ∧ 2 ^ 48 ≤ ((withRegs serving [(2, 0x1000000000000)]).rd 2).toNat ∧
    ((withRegs serving [(2, 0x400)]).rd 2).toNat / 2 ^ 10 % 8 ≠ serving.me.part ∧
    (stopped4.fliven = false ∧ stopped4.id.pid = serving.me.part ∧ stopped4.status = .stopped ∧
      (∃ g, serving.gang? stopped4.id.gang = some g ∧ g.state = .running ∧ g.ctx = 0) ∧
      (∀ p ∈ serving.others, p.2.id.gang = stopped4.id.gang → p.2.status = .stopped) ∧ serving.me.fliven = true) ∧
    (Map.get? serving.others ((serving.rd 2).toNat % 1024) = some stopped4 ∧ serving.others.map Prod.fst = [(serving.rd 2).toNat % 1024] ∧
      serving.rd 0 = 0 ∧ serving.me.ord.path = [] ∧ stopped4.queue = []) ∧
    ({ serving with gangs := [] } : State).gangs = [] := by
  refine ⟨rfl, ?_, ?_, ?_, ?_, ?_, ?_, ?_, ⟨rfl, rfl, rfl, ⟨_, rfl, rfl, rfl⟩, ?_, rfl⟩, ?_, rfl⟩ <;> decide +kernel

/-! Vector memory. -/

/-- Word i and every fourth word of page 1. -/
def words (k i : Nat) : Loc := .gen (0x1000000 + k * i) .normal 1

theorem one_way (is : List Nat) (k : Nat) : OneWay is (words k) := by
  intro i _ j _ a b ty ty' g g' h1 h2 _
  cases h1
  cases h2
  exact ⟨rfl, rfl⟩

theorem reach_of {u : State} {acc : Access} {n : Nat} {is : List Nat} {addr : Nat → Word} {p : Nat → Loc}
    (h : ∀ i ∈ is, check (asked u (is.map addr)) u.agent acc (addr i) n n = .ok { loc := p i, leaf := 0x1000033 }) :
    Reach u acc n is addr p := fun i hi => ⟨0, 0x1000033, h i hi⟩

theorem words_apart (is : List Nat) (k n : Nat) (h : n ≤ k) : Disjoint is (words k) n := by
  intro i _ j _ hij x
  cases x with
  | spad g c o => exact .inl rfl
  | gen b ty g =>
    simp only [words, within]
    by_cases h1 : 0x1000000 + k * i ≤ b ∧ b < 0x1000000 + k * i + n
    · right
      rw [if_neg]
      rintro ⟨h2, h3⟩
      rcases Nat.lt_or_gt_of_ne hij with h4 | h4
      · have := Nat.mul_le_mul_left k (Nat.succ_le_of_lt h4)
        rw [Nat.succ_eq_add_one, Nat.mul_add] at this
        omega
      · have := Nat.mul_le_mul_left k (Nat.succ_le_of_lt h4)
        rw [Nat.succ_eq_add_one, Nat.mul_add] at this
        omega
    · exact .inl (if_neg h1)

/-- The bounds 0 and 8 of VLDB stand behind the base. -/
def bounded : State := withRegs cpt [(2, 0x800000000)]

theorem test_meets_vector_loads :
    (let i := Instr.vld 0 8 1 0 .i32 false; let u := queued cpt i
     OneWay (governedOf u 0) (words 4) ∧ u.me.ord.path = [] ∧ fits u 32 ∧ Enters i false cpt u ∧
     Reach u .vload 4 (governedOf u 0) (strided cpt 1 0 4) (words 4)) ∧
    (let i := Instr.vldx 0 8 1 14 .i32; let u := queued cpt i
     OneWay (governedOf u 0) (words 4) ∧ Enters i false cpt u ∧ (reg u 14).tag ∈ offsetTags ∧ fits u 32 ∧
     Reach u .vload 4 (governedOf u 0) (offsetOf cpt u 1 14) (words 4)) ∧
    (let i := Instr.vldb 0 8 1 14 .i32; let u := queued bounded i
     let x := fun i => (reg u 14).elem 32 i
     let inside := fun i => decide ((bounded.rd (1 + 1)).toNat % 2 ^ 32 ≤ x i ∧ x i < (bounded.rd (1 + 1)).toNat / 2 ^ 32)
     OneWay (governedOf u 0) (words 16) ∧ Enters i false bounded u ∧ (reg u 14).tag ∈ offsetTags ∧ fits u 32 ∧
     (governedOf u 0).filter inside = [0, 1] ∧
     Reach u .vload 4 ((governedOf u 0).filter inside) (fun i => bounded.rd 1 + BitVec.ofNat 64 (x i * 4)) (words 16)) := by
  refine ⟨⟨one_way _ _, rfl, ?_, enters_of ?_, reach_of ?_⟩, ⟨one_way _ _, enters_of ?_, ?_, ?_, reach_of ?_⟩,
    ⟨one_way _ _, enters_of ?_, ?_, ?_, ?_, reach_of ?_⟩⟩
  all_goals (try simp only [fits])
  all_goals decide +kernel

theorem test_meets_vector_stores :
    (let i := Instr.vst 0 1 1 0 false; let u := queued cpt i
     (reg u 1).tag ≠ .e2m1 ∧ u.me.ord.path = [] ∧ fits u (reg u 1).tag.width ∧ Enters i false cpt u ∧
     Reach u .vstore 4 (governedOf u 0) (strided cpt 1 0 4) (words 4)) ∧
    (let i := Instr.vstx 0 1 1 14; let u := queued cpt i
     Enters i false cpt u ∧ (reg u 14).tag ∈ offsetTags ∧ fits u 32 ∧ Reach u .vstore 4 (governedOf u 0) (offsetOf cpt u 1 14) (words 4)) ∧
    (∀ o ∈ [RedOp.add, .max, .min, .maxn, .minn, .and, .or], let i := Instr.vredm 0 1 1 14 o; let u := queued cpt i
     Enters i false cpt u ∧ reducible o (reg u 1).tag) ∧
    (let i := Instr.vredm 0 3 1 14 .fadd; let u := queued cpt i
     Enters i false cpt u ∧ reducible .fadd (reg u 3).tag ∧ (reg u 14).tag ∈ offsetTags ∧ fits u 32 ∧ (∀ c ∈ u.cores, c.2.redMsgs = []) ∧
     Disjoint (governedOf u 0) (words 4) 4 ∧ (∀ k ∈ governedOf u 0, InFrame u (words 4 k)) ∧
     Reach u .vstore 4 (governedOf u 0) (offsetOf cpt u 1 14) (words 4)) := by
  have h : ∀ o ∈ [RedOp.add, .max, .min, .maxn, .minn, .and, .or], entersB (.vredm 0 1 1 14 o) false cpt = true := by decide +kernel
  have h2 : ∀ o ∈ [RedOp.add, .max, .min, .maxn, .minn, .and, .or], reducible o (reg (queued cpt (.vredm 0 1 1 14 o)) 1).tag := by
    intro o ho
    have hi : (reg (queued cpt (.vredm 0 1 1 14 o)) 1).tag ∈ intTags := by revert o; decide +kernel
    simp only [List.mem_cons, List.not_mem_nil, or_false] at ho
    obtain rfl | rfl | rfl | rfl | rfl | rfl | rfl := ho
    exacts [hi, hi, hi, hi, hi, .inl hi, .inl hi]
  refine ⟨⟨?_, rfl, ?_, enters_of ?_, reach_of ?_⟩, ⟨enters_of ?_, ?_, ?_, reach_of ?_⟩, fun o ho => ⟨enters_of (h o ho), h2 o ho⟩,
    ⟨enters_of ?_, rfl, ?_, ?_, ?_, words_apart _ _ _ (by decide), fun _ _ => trivial, reach_of ?_⟩⟩
  all_goals (try simp only [fits])
  all_goals decide +kernel

/-- Nibble i, and the sidecar bytes of block k. -/
def nibbles (i : Nat) : Loc := .gen (0x1000000 + i / 2) .normal 1
def sidecars (k : Nat) : Loc := .gen (0x1000080 + 2 * k) .normal 1

theorem test_meets_nibbles : let s := withRegs cpt [(2, 0x10080)]
    let is := [0, 1, 2, 3]
    let el := fun i => s.rd 1 + BitVec.ofNat 64 (i / 2)
    let sc := fun k => s.rd 2 + BitVec.ofNat 64 (2 * k)
    let u := queued s (.vld 0 8 1 2 .e2m1 false)
    let v := queued s (.vst 0 10 1 2 false)
    Enters (.vld 0 8 1 2 .e2m1 false) false s u ∧ Enters (.vst 0 10 1 2 false) false s v ∧ governedOf u 0 = is ∧ governedOf v 0 = is ∧
    ((List.range 256).filter fun k => is.any fun i => i / 32 == k) = [0] ∧ u.me.ord.path = [] ∧ fits u 4 ∧ (reg v 10).tag = .e2m1 ∧
    (let w := asked u ((nibbleAccesses (s.rd 1) (s.rd 2) is).map fun x => x.2.1)
     (∀ i ∈ is, check w u.agent .vload (el i) 1 1 = .ok { loc := nibbles i, leaf := 0x1000033 }) ∧
     check w u.agent .vload (sc 0) 2 2 = .ok { loc := sidecars 0, leaf := 0x1000033 }) ∧
    (let w := asked v ((nibbleAccesses (s.rd 1) (s.rd 2) is).map fun x => x.2.1)
     (∀ i ∈ is, check w v.agent .vstore (el i) 1 1 = .ok { loc := nibbles i, leaf := 0x1000033 }) ∧
     check w v.agent .vstore (sc 0) 2 2 = .ok { loc := sidecars 0, leaf := 0x1000033 }) := by
  refine ⟨enters_of ?_, enters_of ?_, ?_, ?_, ?_, rfl, ?_, ?_, ?_, ?_⟩
  all_goals (try simp only [fits])
  all_goals decide +kernel

/-- The nibbles and the sidecar bytes lie apart and in one page. -/
theorem test_meets_nibbles_apart : OneWay [0, 1, 2, 3] nibbles ∧ OneWay [0] sidecars ∧
    (∀ i ∈ [0, 1, 2, 3], ∀ k ∈ [0], ∀ x y ty ty' g g', nibbles i = .gen x ty g → sidecars k = .gen y ty' g' → x / 128 = y / 128 →
      ty = ty' ∧ g = g') ∧
    (∀ i ∈ [0, 1, 2, 3], ∀ j ∈ [0, 1, 2, 3], i / 2 ≠ j / 2 → ∀ x, within (nibbles i) 1 x = none ∨ within (nibbles j) 1 x = none) ∧
    Disjoint [0] sidecars 2 ∧
    ∀ i ∈ [0, 1, 2, 3], ∀ k ∈ [0], ∀ x, within (nibbles i) 1 x = none ∨ within (sidecars k) 2 x = none := by
  refine ⟨?_, ?_, ?_, ?_, ?_, ?_⟩
  · intro i _ j _ a b ty ty' g g' h1 h2 _; cases h1; cases h2; exact ⟨rfl, rfl⟩
  · intro i _ j _ a b ty ty' g g' h1 h2 _; cases h1; cases h2; exact ⟨rfl, rfl⟩
  · intro i _ k _ x y ty ty' g g' h1 h2 _; cases h1; cases h2; exact ⟨rfl, rfl⟩
  · intro i _ j _ h x
    cases x with
    | spad g c o => exact .inl rfl
    | gen b ty g =>
      simp only [nibbles, within]
      split
      · exact .inr (if_neg (by omega))
      · exact .inl rfl
  · intro i hi j hj h
    simp only [List.mem_singleton] at hi hj
    exact absurd (hi.trans hj.symm) h
  · intro i hi k hk x
    cases x with
    | spad g c o => exact .inl rfl
    | gen b ty g =>
      have hi : i ≤ 3 := by
        simp only [List.mem_cons, List.not_mem_nil, or_false] at hi
        omega
      simp only [nibbles, sidecars, within]
      split
      · exact .inr (if_neg (by omega))
      · exact .inl rfl

/-! The matrix state. -/

theorem test_meets_matrix_rows : noFpTraps (queued cpt (.mrow 0 7 8)) ∧
    (let i := Instr.mrow 0 7 8; let u := queued cpt i; let v := reg u 7; let t := (u.core u.myCore).tile 0
     Enters i true cpt u ∧ pairAccepted v.tag t.tag = true ∧ fits u v.tag.width ∧ u.me.v.vl % t.pitch = 0 ∧ u.me.v.vl / t.pitch = 2 ∧
     (cpt.rd 8).toNat + 2 ≤ 256 ∧ ∀ j, j < 2 → ((u.core u.myCore).accRow ((cpt.rd 8).toNat + j)).kind ∈ [.none, t.kind]) ∧
    (let i := Instr.mrows 0 0 7 8; let u := queued cpt i; let v := reg u 7; let t := (u.core u.myCore).tile 0
     let t' := (u.core u.myCore).tile (0 + 1)
     Enters i true cpt u ∧ pairAccepted v.tag t.tag = true ∧ t'.tag = t.tag ∧ t'.depth = t.depth ∧ fits u v.tag.width ∧
     u.me.v.vl % (2 * t.depth) = 0 ∧ u.me.v.vl / (2 * t.depth) = 1 ∧ (cpt.rd 8).toNat + 1 ≤ 256 ∧
     ∀ j, j < 1 → ((u.core u.myCore).accRow ((cpt.rd 8).toNat + j)).kind ∈ [.none, t.kind]) ∧
    (let s := withRegs cpt [(9, 255)]; Enters (.mzero 9 8) true s (queued s (.mzero 9 8)) ∧ (s.rd 9).toNat + (s.rd 8).toNat ≤ 256) ∧
    (Enters (.mzero 9 0) true cpt (queued cpt (.mzero 9 0)) ∧ cpt.rd 0 = 0) := by
  refine ⟨.inr ?_, ⟨enters_of ?_, ?_, ?_, ?_, ?_, ?_, ?_⟩, ⟨enters_of ?_, ?_, ?_, ?_, ?_, ?_, ?_, ?_, ?_⟩, ⟨enters_of ?_, ?_⟩, enters_of ?_, rfl⟩
  all_goals (try simp only [fits])
  all_goals decide +kernel

/-- MDRAIN of the last accumulator row: converted, to E2M1, and with error feedback. -/
theorem test_meets_drains : let s := withRegs (withVl cpt 128) [(9, 255)]
    (∀ i ∈ [Instr.mdrain 8 9 false .i8, .mdrain 8 9 false .e2m1, .mdrain 8 9 true .e4m3], let u := queued s i
      Enters i true s u ∧ noFpTraps u ∧ u.me.v.vl % 128 = 0 ∧ (s.rd 9).toNat + u.me.v.vl / 128 ≤ 256) ∧
    (∀ t ∈ [Tag.i8, .e2m1, .e4m3], fits (queued s (.mdrain 8 9 false t)) t.width ∧
      ∀ j, j < 1 → drains (((queued s (.mdrain 8 9 false t)).core s.myCore).accRow ((s.rd 9).toNat + j)).kind t = true) := by
  have h : ∀ i ∈ [Instr.mdrain 8 9 false .i8, .mdrain 8 9 false .e2m1, .mdrain 8 9 true .e4m3],
    entersB i true (withRegs (withVl cpt 128) [(9, 255)]) = true := by decide +kernel
  refine ⟨fun i hi => ⟨enters_of (h i hi), .inr ?_, ?_, ?_⟩, ?_⟩
  · revert i; decide +kernel
  · revert i; decide +kernel
  · revert i; decide +kernel
  · simp only [fits]; decide +kernel

theorem test_meets_tile_moves :
    (∀ c ∈ [(Tag.e2m1, (256 : Word)), (.bf16, 1), (.i8, 128)], let s := withRegs cpt [(9, c.2)]; let i := Instr.tset 0 c.1 9
      Enters i true s (queued s i)) ∧ 256 ≤ tileK .e2m1 ∧ 128 ≤ tileK .i8 ∧
    (let s := withRegs (withVl cpt 128) [(9, 63)]; let i := Instr.twrow 0 7 9; let u := queued s i
     let v := reg u 7; let t := (u.core u.myCore).tile 0
     Enters i true s u ∧ noFpTraps u ∧ t.tag ≠ .e2m1 ∧ t.tag ≠ .raw ∧ v.tag ≠ .e2m1 ∧ v.tag ≠ .e8m0 ∧ v.tag ≠ .raw ∧ fits u v.tag.width ∧
     u.me.v.vl % 128 = 0 ∧ (s.rd 9).toNat + u.me.v.vl / 128 ≤ tileK t.tag) ∧
    (let s := withRegs cpt [(9, 126)]; let i := Instr.trcol 8 0 9; let u := queued s i; let t := (u.core u.myCore).tile 0
     Enters i true s u ∧ t.tag ≠ .raw ∧ fits u t.tag.width ∧ u.me.v.vl % t.depth = 0 ∧ (s.rd 9).toNat + u.me.v.vl / t.depth ≤ 128) ∧
    (let s := withRegs (withVl cpt 32) [(9, 127)]; let i := Instr.trcol 8 2 9; let u := queued s i; let t := (u.core u.myCore).tile 2
     Enters i true s u ∧ t.tag = .e2m1 ∧ fits u t.tag.width ∧ u.me.v.vl % t.depth = 0 ∧ (s.rd 9).toNat + u.me.v.vl / t.depth ≤ 128 ∧
     t.depth % 32 = 0) := by
  have h : ∀ c ∈ [(Tag.e2m1, (256 : Word)), (.bf16, 1), (.i8, 128)], entersB (.tset 0 c.1 9) true (withRegs cpt [(9, c.2)]) = true := by
    decide +kernel
  refine ⟨fun c hc => enters_of (h c hc), ?_, ?_, ⟨enters_of ?_, .inr ?_, ?_, ?_, ?_, ?_, ?_, ?_, ?_, ?_⟩, ⟨enters_of ?_, ?_, ?_, ?_, ?_⟩,
    enters_of ?_, ?_, ?_, ?_, ?_, ?_⟩
  all_goals (try simp only [fits])
  all_goals decide +kernel

/-- The images of a BF16 tile and of an E2M1 tile, the second behind 0x8000, where its sidecar still fits. -/
theorem test_meets_tile_images :
    (let i := Instr.tlds 0 5; let u := queued cpt i; Enters i true cpt u ∧ imagePlace u (cpt.rd 5) 16384 = .ok (0, 0)) ∧
    (let s := withRegs cpt [(5, 0x800000000000B800)]; let i := Instr.tlds 2 5; let u := queued s i
     Enters i true s u ∧ ((u.core u.myCore).tile 2).tag = .e2m1 ∧ imagePlace u (s.rd 5) 18432 = .ok (0, 0xB800)) ∧
    (let i := Instr.tldm 0 5 8; let u := queued cpt i; Enters i true cpt u ∧ imagePlace u (cpt.rd 5) 16384 = .ok (0, 0) ∧
     (cpt.rd 8).toNat < 256 ∧ ∀ g, u.gang? u.me.id.gang = some g → ∀ k, k < 8 → (cpt.rd 8).toNat / 2 ^ k % 2 = 1 → k ∈ g.cids) := by
  refine ⟨⟨enters_of ?_, ?_⟩, ⟨enters_of ?_, ?_, ?_⟩, enters_of ?_, ?_, ?_, ?_⟩
  case refine_9 =>
    intro g hg
    have : g = { gid := 0, launch := 1, part := 0, cluster := 0, cids := [0], keys := [0], state := .running, task := { ngang := 1, spad := 4 } } :=
      (Option.some.inj hg).symm
    subst this
    decide +kernel
  all_goals decide +kernel

/-! Copies and stream slots. -/

/-- A copy of one row of 16 bytes from page 0x1000 to 0x2000 of scratchpad on channel 7. -/
def copying : State :=
  withVl (withSpad cpt (Mem.write [] 0 (bytesOfNat 128 (1 + 7 * 2 ^ 40 + 0x8000000000001000 * 2 ^ 64 + 0x8000000000002000 * 2 ^ 128
    + 16 * 2 ^ 192 + 2 ^ 224 + 2 ^ 256 + 2 ^ 288 + 2 ^ 320)))) 1

theorem test_meets_tcopy : let s := copying
    let r := Shape.ofBytes (bytesOfNat 128 (numberAt s (spadAt s (s.rd 5)) 128))
    Calm s ∧ s.me.fliven = false ∧ Free s [5, 0, 0] ∧ s.rd 0 = 0 ∧ s.me.v.vl = 1 ∧
    (s.me.v.vstart = 0 ∧ s.me.v.vdone = 0 ∧ s.me.v.fppend = false) ∧
    (∀ g ∈ s.me.v.groups, ∀ x, (s.core s.myCore).groups[g]? = some x → x.asleep = false) ∧ (s.core s.myCore).chunks = [] ∧
    r.check s (s.rd 5) 0 = none ∧ (Map.getD (s.core s.myCore).chans r.chan {}).held < 1024 ∧ (s.rd 0).toNat < r.nrows ∧ r.rop = 0 ∧
    r.ctag = 0 ∧ r.mcast = 0 ∧ r.e 0 * r.ssize = 16 ∧ r.srcRow 0 = 0x8000000000001000 ∧ r.dstRow 0 = 0x8000000000002000 := by
  refine ⟨calm_of ?_, rfl, free_of rfl _, ?_, rfl, fresh_of ?_, awake_of ?_, ?_, ?_, ?_, ?_, ?_, ?_, ?_, ?_, ?_, ?_⟩ <;> decide +kernel

/-- The ranges of that copy: its record, its source, its destination, which does not meet the source. -/
theorem test_meets_tcopy_ranges :
    (∀ c ∈ [((0x8000000000000000 : Word), 128), (0x8000000000001000, 16), (0x8000000000002000, 16)], SpadRange copying c.1 c.2) ∧
    ∀ i, i < 16 → within (spadAt copying 0x8000000000001000) 16 ((spadAt copying 0x8000000000002000).plus i) = none := by
  have h : ∀ c ∈ [((0x8000000000000000 : Word), 128), (0x8000000000001000, 16), (0x8000000000002000, 16)],
    c.1.getLsbD 63 = true ∧ formTrap c.1 = none ∧ c.1.toNat % 2 ^ 20 + c.2 ≤ 2 ^ 20 ∧ c.1.toNat / 2 ^ 21 % 8 ∈ [0] ∧
      (c.1.toNat % 2 ^ 20 + c.2 - 1) / 0x4000 < 4 := by
    simp only [List.forall_mem_cons, List.not_mem_nil, false_implies, implies_true, and_true]
    decide
  refine ⟨fun c hc => ?_, ?_⟩
  · obtain ⟨h1, h2, h3, h4, h5⟩ := h c hc
    exact ⟨h1, h2, h3, _, rfl, h4, h5, rfl⟩
  · decide +kernel

theorem test_meets_sbind_and_sfree : Enters (.sfree 3) false cpt (queued cpt (.sfree 3)) ∧
    (let i := Instr.sbind 8 1 .f32 3; let u := queued cpt i
     let num := fun (o k : Nat) => numberSeen u .si (at1.loc.plus o) k
     Enters i false cpt u ∧ (∀ k, k < 4 → k ≠ (3 : BitVec 2).toNat → (u.me.v.stream k).bound = false) ∧
     check (touch u u.agent (cpt.rd 1)) u.agent .vload (cpt.rd 1) 32 32 = .ok at1 ∧ isRemote at1.loc.pa = false ∧
     (u.core u.myCore).l1 = [] ∧ num 0 8 < 2 ^ 63 ∧ num 0 8 % (Tag.f32.width / 8) = 0 ∧
     ∀ x ∈ (List.range 3).map fun k => sx 32 (num (8 + 8 * k) 4), x % (Tag.f32.width / 8 : Nat) = 0) := by
  refine ⟨enters_of ?_, enters_of ?_, ?_, ?_, ?_, ?_, ?_, ?_, ?_⟩ <;> decide +kernel

/-! Courses and the homes seen from the lanes. -/

/-- A stream of 32-bit integer records bound to the header at 0x10000: two courses of four items, two records appended. -/
def rested : Stream :=
  { part := 0, va := 0x10000, pa := 0x1000000, engine := 0, rsz := 2, tag := .i32, comb := 0, scope := .die, budget := 0, caps := [6, 4]
    poolPa := 0, entryPas := [], spare := [], head := 2
    courses := [{ items := [10, 11], pages := [{ va := 0x50000, pa := 0x1040000, written := 2, gone := 0 }] }, {}] }

def bound : State := { cpt with streams := [(0x20000, rested)] }

theorem course_of {i : Instr} {hdr : Word} {s p : State} {key : Nat} {x : Stream}
    (h : (calmB s && (decodeTrap s i false == none) && freshB s && awakeB s) = true) (hb : (bindStream p hdr).2 = .ok key)
    (ht : bindingTrap (bindStream p hdr).1.me.v (entryFor s i) = none) (hp : popSlots (bindStream p hdr).1.me.v (entryFor s i) = [])
    (hx : Map.get? (bindStream p hdr).1.streams key = some x) (hf : x.faulted = false)
    (hs : x.arrivals = [] ∧ x.holds = [] ∧ x.begun = none ∧ ∀ k, k < x.levels → x.cnt k ≤ x.cap k) :
    EntersCourse i hdr s p (bindStream p hdr).1 key x := by
  simp only [Bool.and_eq_true, beq_iff_eq] at h
  exact ⟨calm_of h.1.1.1, h.1.1.2, fresh_of h.1.2, awake_of h.2, ⟨_, _, Prod.ext rfl hb, ht, popAll_unbound hp⟩, hx, hf, hs⟩

/-- HAPPEND of four records, which fill the finest course. -/
theorem test_meets_happend : let i := Instr.happend 1 1; let p := queued bound i
    let u := (bindStream p (bound.rd 1)).1
    EntersCourse i (bound.rd 1) bound p u 0x20000 rested ∧ u.me.ord.path = [] ∧ (reg u 1).tag = rested.tag ∧ fits u rested.tag.width ∧
    u.me.v.vl * rested.tag.width % rested.recBits = 0 ∧ u.me.v.vl * rested.tag.width / rested.recBits = 4 ∧ 0 < rested.levels ∧
    rested.freed = [] ∧ rested.cnt 0 + 4 ≤ rested.cap 0 ∧ rested.head + 4 ≤ 2 ^ 63 ∧
    ∃ pg, (rested.course 0).pages.getLast? = some pg ∧ pg.written + 4 ≤ rested.perPage := by
  refine ⟨course_of ?_ ?_ ?_ ?_ ?_ rfl ⟨rfl, rfl, rfl, ?_⟩, ?_, ?_, ?_, ?_, ?_, ?_, rfl, ?_, ?_, ⟨_, rfl, ?_⟩⟩
  all_goals (try simp only [fits])
  all_goals decide +kernel

/-- HLOADR and HLOADE of a stored record, HSYNC and HSTAT. -/
theorem test_meets_history_reads : let s := withRegs bound [(2, 0)]
    (let i := Instr.hloadr 8 1 8; let p := queued s i; let u := (bindStream p (s.rd 1 &&& ~~~(127 : Word))).1
     EntersCourse i (s.rd 1 &&& ~~~(127 : Word)) s p u 0x20000 rested ∧ (s.rd 1).toNat % 128 < 16 ∧
     (rested.decide (s.rd 8).toNat ((s.rd 1).toNat % 128)).2.2.2 = none ∧ rested.recBits ≤ u.me.v.lg * 2048 ∧
     rested.elems * rested.tag.width ≤ 32768) ∧
    (let i := Instr.hloade 1 1 14; let p := queued s i; let u := (bindStream p (s.rd 1 &&& ~~~(127 : Word))).1
     EntersCourse i (s.rd 1 &&& ~~~(127 : Word)) s p u 0x20000 rested ∧ rested.recBits = rested.tag.width ∧ (reg u 14).tag ∈ offsetTags ∧
     fits u 32 ∧ ∀ k, k < u.me.v.vl →
       (rested.decide (s.rd (1 + 1) + BitVec.ofNat 64 ((reg u 14).elem 32 k)).toNat ((s.rd 1).toNat % 128)).2.2.2 = none) ∧
    (let i := Instr.hsync 1; let p := queuedAsleep s i; let u := (bindStream p (s.rd 1 &&& ~~~(127 : Word))).1
     EntersCourse i (s.rd 1 &&& ~~~(127 : Word)) s p u 0x20000 rested) ∧
    (s.me.fliven = false ∧ Free s [9, 9 + 1, 1] ∧ s.later = false ∧ NoReleases s ∧ (∀ e ∈ entriesOf s.me.queue, isHistory e.instr = false) ∧
      (bindStream s (s.rd 1)).2 = .ok 0x20000 ∧ Map.get? (bindStream s (s.rd 1)).1.streams 0x20000 = some rested) := by
  refine ⟨⟨course_of ?_ ?_ ?_ ?_ ?_ rfl ⟨rfl, rfl, rfl, ?_⟩, ?_, ?_, ?_, ?_⟩,
    ⟨course_of ?_ ?_ ?_ ?_ ?_ rfl ⟨rfl, rfl, rfl, ?_⟩, ?_, ?_, ?_, ?_⟩, course_of ?_ ?_ ?_ ?_ ?_ rfl ⟨rfl, rfl, rfl, ?_⟩,
    rfl, free_of rfl _, ?_, no_releases_of, ?_, ?_, ?_⟩
  all_goals (try simp only [fits])
  all_goals decide +kernel

/-- VAPP where the page has just room, and where it has not. -/
theorem test_meets_vapp : ∀ tl ∈ [65520, 65528], let s := withApp cpt { tail := tl }; let i := Instr.vapp 9 2 1; let u := queued s i
    Enters i false s u ∧ (reg u 1).tag ≠ .e2m1 ∧ fits u (reg u 1).tag.width ∧ 0 < u.me.v.vl ∧
    check (touch u u.agent (s.rd 2)) u.agent (.appendOp true) (s.rd 2) 1 1 = .ok at2 ∧
    (touch u u.agent (s.rd 2)).app 0x101 = { tail := tl } ∧ (u.me.v.vl * (reg u 1).tag.width / 8 + 7) / 8 * 8 = 16 := by
  have h : ∀ tl ∈ [65520, 65528], entersB (.vapp 9 2 1) false (withApp cpt { tail := tl }) = true := by decide +kernel
  intro tl ht
  refine ⟨enters_of (h tl ht), ?_, ?_, ?_, ?_, ?_, ?_⟩
  all_goals (try simp only [fits])
  all_goals revert tl
  all_goals decide +kernel

/-- Cell e of page 3. -/
def cell (e : Nat) : Place := { at3 with loc := at3.loc.plus (16 * e) }

theorem test_meets_vpropose : let i := Instr.vpropose 1 3 15; let u := queued cpt i
    let w := asked u ((List.range u.me.v.vl).map (offsetOf cpt u 3 15))
    Enters i false cpt u ∧ u.me.ord.path = [] ∧ (reg u 1).tag ∈ offsetTags ∧ (reg u 15).tag ∈ offsetTags ∧ fits u 32 ∧ u.me.v.vl ≤ 1024 ∧
    (∀ e, e < u.me.v.vl → check w u.agent (.onceOp true) (offsetOf cpt u 3 15 e) 16 16 = .ok (cell e) ∧
      0x102 = (cell e).loc.pa / 65536 ∧ e = (cell e).loc.pa % 65536 / 16) ∧
    ∀ e k : Nat, e < u.me.v.vl → k < u.me.v.vl → e ≠ k → 0x102 ≠ 0x102 ∨ e ≠ k := by
  refine ⟨enters_of ?_, rfl, ?_, ?_, ?_, ?_, ?_, fun _ _ _ _ h => .inr h⟩
  all_goals (try simp only [fits])
  all_goals decide +kernel

/-- Word e × 16 of page 1. -/
def watched (e : Nat) : Place := { at1 with loc := at1.loc.plus (16 * e) }

/-- Registers v16 whose values no word holds. -/
def unmet : State := { cpt with me := { cpt.me with v := { cpt.me.v with slots := Map.set cpt.me.v.slots 16 (elems 32 .n32 [1, 2, 3, 4]) } } }

/-- Watches that are met at once, and watches that are not. -/
theorem test_meets_watches : cpt.me.wto = 0 ∧ unmet.me.wto = 0 ∧
    ∀ i ∈ [Instr.vwaitall 1 1 15, .vwaitany 1 1 15],
      (let u := queuedAsleep cpt i
       EntersAsleep i cpt u ∧ u.me.v.vl = 4 ∧ (reg u 15).tag ∈ offsetTags ∧ (u.slot (place u 15 + 1)).tag ∈ offsetTags ∧ fits u 32 ∧
       (∀ e ∈ List.range 4, check (asked u ((List.range 4).map (offsetOf cpt u 1 15))) u.agent .vload (offsetOf cpt u 1 15 e) 4 4
         = .ok (watched e)) ∧
       (∀ e ∈ List.range 4, (numberAt u (watched e).loc 4 == (u.slot (place u 15 + 1)).elem 32 e) = true)) ∧
      (let u := queuedAsleep unmet i
       EntersAsleep i unmet u ∧ (∀ e ∈ List.range 4, (numberAt u (watched e).loc 4 == (u.slot (place u 15 + 1)).elem 32 e) = false) ∧
       popSlots u.me.v (entryFor unmet i) = []) := by
  have h : ∀ i ∈ [Instr.vwaitall 1 1 15, .vwaitany 1 1 15], entersB i false cpt = true ∧ entersB i false unmet = true := by decide +kernel
  refine ⟨rfl, rfl, fun i hi => ⟨⟨enters_asleep_of (h i hi).1, ?_, ?_, ?_, ?_, ?_, ?_⟩, enters_asleep_of (h i hi).2, ?_, ?_⟩⟩
  all_goals (try simp only [fits])
  all_goals revert i
  all_goals decide +kernel

theorem test_meets_topk : (let i := Instr.vtopk 1 1 7; let u := queued cpt i
      Enters i false cpt u ∧ (reg u 1).tag ∈ intTags ++ floatTags ∧ fits u (reg u 1).tag.width) ∧
    (let i := Instr.vtopk 0 3 7; let u := queued cpt i
      Enters i false cpt u ∧ (reg u 3).tag ∈ intTags ++ floatTags ∧ fits u (reg u 3).tag.width) := by
  refine ⟨⟨enters_of ?_, ?_, ?_⟩, enters_of ?_, ?_, ?_⟩
  all_goals (try simp only [fits])
  all_goals decide +kernel

/-! The platform and the steps without a word. -/

/-- Every stage of the start, an idle part, both ends of the limits. -/
theorem test_meets_platform_steps : State.reset.stage = .off ∧ ({ State.reset with stage := .safe } : State).stage = .safe ∧
    (let s := { State.reset with stage := .dies }; s.stage = .dies ∧ ∀ k, k < 16 → (s.strand? (1024 + k)).isSome) ∧
    (8 ∈ [1, 2, 4, 8] ∧ flv.stage ≠ .off ∧ flv.stage ≠ .failed ∧ (∀ p ∈ flv.gangs, p.2.state ≠ .placed ∧ p.2.state ≠ .running) ∧
      ∀ p, p < flv.nparts → ∀ q, q < 64 → (descOf flv p q).state = 0) ∧ flv.stage = .ready ∧ flv.attested < 1048576 ∧
    1048576 ≤ ({ flv with attested := 1048576 } : State).attested ∧ State.reset.stage ≠ .ready ∧ 1000000 < (-1000001 : Int).natAbs ∧
    (1000000 : Int).natAbs ≤ 1000000 := by
  refine ⟨rfl, rfl, ⟨rfl, ?_⟩, ⟨?_, ?_, ?_, ?_, ?_⟩, rfl, ?_, ?_, ?_, ?_, ?_⟩ <;> decide +kernel

/-- A free group of core 0, free for exactly 10 µs, and a held one; 15 events of a way; the last device byte; a full record queue. -/
theorem test_meets_errors_and_sleep :
    (let s := { cpt with now := 10000 }
     (s.core 0).groups[15]? = some ({} : LaneGroup) ∧ (s.core 0).groups[0]? = some { owner := some 0 } ∧ ({} : LaneGroup).owner = none ∧
     ({} : LaneGroup).retired = false ∧ ({} : LaneGroup).freeSince + 10000 ≤ s.now) ∧
    (let s := { cpt with l2Errors := [(3 * 65536 + 7, List.replicate 15 0)] }; ((Map.get? s.l2Errors (3 * 65536 + 7)).getD []).length < 16) ∧
    0x7FFFFFFFFF < Config.deviceBytes ∧ 0x7FFFFFFFFF / 128 ∉ cpt.lostLines ∧
    (let s := withPart cpt { frqsize := 16, frqtail := 16 }
     let p := s.part (0x7FFFFFFFFF / 2 ^ 36 % 8 * s.nparts / 8)
     p.frqsize ≤ (p.frqtail + 2 ^ 32 - p.frqhead) % 2 ^ 32) := by decide +kernel

def aLine (own : Bool) : CacheLine := { own := own, dirty := 0, data := List.replicate 128 0, time := 0 }

/-- The part is READY, or an access comes from the host; nothing is lost; no link has failed. -/
theorem reaches_of {s : State} {r : RemoteReq} (h : (!r.hostMemory && decide (r.addr + remoteSize r.op ≤ Config.deviceBytes)
    && (s.stage == .ready || (s.stage == .dies && r.peer.isNone)) && s.failedPeers.isEmpty && (r.peer.all fun q => decide (q < 256))
    && !s.lost r.addr (remoteBytes r.op)) = true) : Claim.Reaches s r := by
  simp only [Bool.and_eq_true, Bool.not_eq_true', decide_eq_true_eq, Bool.or_eq_true, beq_iff_eq, List.isEmpty_iff,
    Option.isNone_iff_eq_none, Option.all_eq_true] at h
  obtain ⟨⟨⟨⟨⟨h1, h2⟩, h3⟩, h4⟩, h5⟩, h6⟩ := h
  exact ⟨⟨h1, h2⟩, h3, fun q hq => ⟨h5 q hq, by simp [h4]⟩, h6⟩

/-- Copies in an L1 and in a gateway slice; accesses from the host and from a peer, up to the last device byte; appends that fit with
their zeros and that do not; proposals of the page's generation and of another; an OCLEAR of the last generation; a part whose link is not
up. -/
theorem test_meets_copies_and_outside :
    (let s := cpt.modCore 0 fun x => { x with l1 := [(0x20000, aLine false)] }
     Map.get? (s.core 0).l1 0x20000 = some (aLine false) ∧ (aLine false).own = false) ∧
    (∃ x, Map.get? cpt.dies 0 = some x) ∧
    (let r : RemoteReq := { peer := none, hostMemory := false, addr := 0x7FFFFFFFF8, op := .write [1, 2, 3, 4, 5, 6, 7, 8] }
     Map.get? cpt.apps (r.addr / 65536) = none ∧ Map.get? cpt.onces (r.addr / 65536) = none ∧ Claim.Reaches cpt r ∧
     Claim.Reaches { cpt with stage := .dies } r) ∧
    Claim.Reaches cpt { peer := some 255, hostMemory := false, addr := 0, op := .read 8 } ∧
    Claim.Reaches cpt { peer := some 0, hostMemory := false, addr := 0, op := .amo .add 1 0 } ∧
    (∀ d ∈ [([1, 2] : List Byte), [1, 2, 3, 4, 5, 6, 7, 8, 9]], let s := withApp cpt { tail := 65528 }
     let r : RemoteReq := { peer := none, hostMemory := false, addr := 0x1010000, op := .append d }
     Claim.Reaches s r ∧ Map.get? s.apps (r.addr / 65536) = some { tail := 65528 } ∧ (8 ∣ 65528) ∧
     (65528 + (d.length + 7) / 8 * 8 ≤ 65536 ↔ d.length = 2) ∧ s.lost (0x1010000 + 65528) 8 = false) ∧
    (∀ g ∈ [0, 1], let s := { cpt with onces := [(0x102, { cells := [(0, 7)] })] }
     let r : RemoteReq := { peer := none, hostMemory := false, addr := 0x1020010, op := .propose g 5 }
     Claim.Reaches s r ∧ Map.get? s.apps (r.addr / 65536) = none ∧ Map.get? s.onces (r.addr / 65536) = some { cells := [(0, 7)] }) ∧
    (let s := { cpt with onces := [(0x102, { gen := 0xFFFFFFFF, cells := [(0, 7)] })] }
     let r : RemoteReq := { peer := some 3, hostMemory := false, addr := 0x1020000, op := .oclear }
     Claim.Reaches s r ∧ s.later = false ∧ s.shoots = [] ∧ (∀ p ∈ s.strands, p.2.ord.path = []) ∧
     (∀ c ∈ s.cores, c.2.chunks = [] ∧ c.2.stores = []) ∧ Map.get? s.apps (r.addr / 65536) = none ∧
     Map.get? s.onces (r.addr / 65536) = some { gen := 0xFFFFFFFF, cells := [(0, 7)] } ∧ (Map.get? s.peerHolds (r.addr / 65536)).getD [] = []) ∧
    (State.reset.stage ≠ .ready ∧ State.reset.stage ≠ .dies ∧
      (let r : RemoteReq := { peer := some 3, hostMemory := false, addr := 0, op := .read 8 }; r.hostMemory = false ∧ r.peer ≠ none)) := by
  refine ⟨⟨?_, rfl⟩, ⟨_, rfl⟩, ⟨rfl, rfl, reaches_of ?_, reaches_of ?_⟩, reaches_of ?_, reaches_of ?_, fun d hd => ⟨reaches_of ?_, ?_⟩,
    fun g hg => ⟨reaches_of ?_, ?_⟩, ⟨reaches_of ?_, ?_⟩, ?_⟩
  case refine_6 => revert d; decide +kernel
  case refine_7 => revert d; decide +kernel
  case refine_8 => revert g; decide +kernel
  case refine_9 => revert g; decide +kernel
  all_goals decide +kernel

/-! The dispatch units. -/

/-- Queue 4 of partition 0 holds one record in slot 0: a task of one gang of one strand. -/
def filledQueue : State :=
  withBytes (withBytes (ringed flv) 0x2000110 4 1) 0x1040000 16 (0x10000 + 2 ^ 64 + 2 ^ 96 + 2 ^ 104 + 2 ^ 112 + 2 ^ 120)

/-- A descriptor that runs in order, ones whose SIZE is 3 with and without a BASE, one without a BASE, an idle one; a record that passes its
checks. -/
theorem test_meets_queues : (0 : Nat) < filledQueue.nparts ∧ filledQueue.stage = .ready ∧ State.reset.stage ≠ .ready ∧
    (let d := descOf filledQueue 0 4; d.state = 1 ∧ d.base ≠ 0 ∧ (d.malformed = false ∧ d.filled ≤ d.size) ∧ d.filled ≠ 0) ∧
    (∀ s ∈ [withBytes filledQueue 0x2000108 4 3, withBytes (withBytes filledQueue 0x2000108 4 3) 0x2000100 8 0], let d := descOf s 0 4
     d.state = 1 ∧ ¬ (d.state ≠ 1) ∧ ¬ (d.malformed = false ∧ d.filled ≤ d.size)) ∧
    (let d := descOf (withBytes filledQueue 0x2000100 8 0) 0 4; d.state = 1 ∧ d.base = 0 ∧ d.malformed = false ∧ d.filled ≤ d.size) ∧
    (descOf filledQueue 0 5).state ≠ 1 ∧ (filledQueue.part 0).serving = none ∧ (filledQueue.queueInfo 0 4).head = none ∧
    (let d := descOf filledQueue 0 4
     let ag := hwAgent 0 (0 * 32 / filledQueue.nparts / 8)
     check (touch filledQueue ag (d.slot d.ridx)) ag .hwRead (d.slot d.ridx) 128 128 = .ok { at1 with loc := .gen 0x1040000 .normal 1, leaf := 0x1040033 } ∧
     recordBad (filledQueue.mem.read 0x1040000 128) = false ∧ (taskOf (filledQueue.mem.read 0x1040000 128)).ngang = 1) := by
  decide +kernel

/-- A head without counters that starts now. -/
def withHead (s : State) (x : TaskRec) (release : Option Nat) : State :=
  { s with parts := [(0, { savebase := 0x2000000, savesize := 0x4000000, queues := [(4, { head := some x, release := release })] })] }

theorem test_meets_eligible_heads :
    (let s := withHead flv {} none
     (s.queueInfo 0 4).head = some {} ∧ (s.queueInfo 0 4).release = none ∧ s.stage = .ready ∧ ({} : TaskRec).deps = [] ∧
     ({} : TaskRec).flags % 2 = 0 ∧ ({} : TaskRec).start ≤ s.now) ∧
    (let s := withHead filledQueue { ngang := 1 } (some 0)
     s.stage = .ready ∧ (0 : Nat) < s.nparts ∧
     (s.part 0).serving = none ∧ eligibleHeads s 0 ≠ []) ∧
    eligibleHeads (withHead filledQueue {} (some 0)) 0 ≠ [] := by decide +kernel

/-- A served task of two gangs of two strands on two cores, of which one was placed. -/
def served : Launch :=
  { part := 0, queue := 4, index := 0, task := { ngang := 2, nstr := 2, ncore := 2, spad := 4 }, lstart := 0, placed := 1 }

def serves : State :=
  { withHead flv {} none with
    parts := [(0, { savebase := 0x2000000, savesize := 0x4000000, serving := some 1 })], launches := [(1, served)] }

theorem test_meets_placement : serves.stage = .ready ∧ (0 : Nat) < serves.nparts ∧
    FindsPlace (chooseAgain (reapGangs serves) 0) 0 1 served 0 [0, 1] ∧
    ((serves.part 0).serving = some 1 ∧ Map.get? serves.launches 1 = some served ∧ served.placed ≠ 0) := by
  refine ⟨rfl, ?_, ⟨⟨?_, ?_⟩, ?_, ⟨rfl, ?_⟩, ?_, ?_⟩, ?_, ?_, ?_⟩ <;> decide +kernel

/-- A task is served, but no gang of it is placed, when the head of another queue comes first. -/
def choosing : State :=
  let s := withHead filledQueue { ngang := 1 } (some 0)
  { s with parts := s.parts.map fun p => (p.1, { p.2 with serving := some 1 }), launches := [(1, { served with queue := 9, placed := 0 })] }

/-- 23_scheduling R325: the choice stays open until gang 0 of the task is placed. -/
theorem test_choice_stays_open : choosing.stage = .ready ∧
    (∀ lk l, (choosing.part 0).serving = some lk → Map.get? choosing.launches lk = some l → l.placed = 0) ∧ eligibleHeads choosing 0 ≠ [] ∧
    FindsPlace (chooseAgain (reapGangs choosing) 0) 0 1 { part := 0, queue := 4, index := 0, task := { ngang := 1 }, lstart := 0 } 0 [0] := by
  have e : (choosing.part 0).serving = some 1 := by decide +kernel
  have e' : Map.get? choosing.launches 1 = some { served with queue := 9, placed := 0 } := by decide +kernel
  refine ⟨rfl, ?_, ?_, ⟨⟨?_, ?_⟩, ?_, ⟨rfl, ?_⟩, ?_, ?_⟩⟩
  · intro lk l h g
    rw [e] at h
    cases h
    rw [e'] at g
    cases g
    rfl
  all_goals decide +kernel

/-- A placed gang whose strand may start, and a launch whose only gang has ended. -/
theorem test_meets_start_and_completion :
    (let s : State := { cpt with me := { cpt.me with status := .placed }, gangs := cpt.gangs.map fun p => (p.1, { p.2 with state := .placed }) }
     (∃ x, s.gang? 1 = some x ∧ x.state = .placed) ∧ residentOf s 1 ≠ [] ∧
     ∀ k ∈ residentOf s 1, k.2.status ≠ .stopped ∧ ((0 : Nat) = 0 ∨ 2 * k.2.id.lstart ≤ 2 * s.now) ∧
       ∀ y ∈ (s.core (k.1 / 4)).groups, y.owner = some (k.1 % 4) → y.asleep = false) ∧
    (let s : State := { cpt with launches := cpt.launches.map fun p => (p.1, { p.2 with ended := 1 }) }
     ∃ l, Map.get? s.launches 1 = some l ∧ l.placed = l.task.ngang ∧ l.ended = l.placed) := by
  refine ⟨⟨⟨_, rfl, rfl⟩, ?_, ?_⟩, _, rfl, rfl, rfl⟩ <;> decide +kernel

/-- The gang has slept for 100,001 ns and another gang of its launch waits. -/
def asleepLong (s : State) : State :=
  { s with now := 100001, me := { s.me with wait := { since := some 0 } }
           launches := s.launches.map fun p => (p.1, { p.2 with task := { p.2.task with ngang := 2 } }) }

theorem test_meets_rotation :
    (∀ s ∈ [asleepLong cpt, { asleepLong cpt with parts := [(0, { savebase := 0x2000000, savesize := 0x4000000 })] }],
      ∃ l x, Map.get? s.launches 1 = some l ∧ rotationDue s 1 l = true ∧
        longestAsleep s (s.gangs.filter fun p => p.2.launch == 1 && p.2.isResident) = some (1, x) ∧
        stopHeld s 1 ((x.stopReq.map Prod.fst).getD s.now) = false ∧ (s.part l.part).serving ≠ some 1 ∧ s.gangs.map Prod.fst = [1]) ∧
    contextRoom (asleepLong cpt) 1 = false ∧
    contextRoom { asleepLong cpt with parts := [(0, { savebase := 0x2000000, savesize := 0x4000000 })] } 1 = true := by
  refine ⟨?_, ?_, ?_⟩
  · simp only [List.forall_mem_cons, List.not_mem_nil, false_implies, implies_true, and_true]
    refine ⟨⟨_, _, rfl, ?_, rfl, ?_, ?_, rfl⟩, _, _, rfl, ?_, rfl, ?_, ?_, rfl⟩ <;> decide +kernel
  all_goals decide +kernel

/-- Sixty elements of which twenty are issued; a cycle of one lane group takes sixteen of 32 bits (02 R17). -/
def begun : State := markIssued 20 (queued (withVl cpt 60) (.vadd 0 2 1 (.v 2)))

theorem test_meets_stop_inside : ∃ e q, begun.me.queue = .entry e :: q ∧ e.instr = .vadd 0 2 1 (.v 2) ∧ e.upTo = some 20 ∧
    groupsAsleep begun e.whole = false ∧ begun.me.v.vstart = 0 ∧ (∀ x ∈ begun.me.v.streams.toList, x.bound = false) ∧
    (begun.slot (e.wb + 1)).tag ∈ Claim.intTags ∧ (begun.slot (e.wb + 2)).tag = (begun.slot (e.wb + 1)).tag ∧
    e.vl * 32 ≤ e.lg * 2048 ∧ 0 < roundUp 20 (16 * e.lg * (32 / 32)) ∧ roundUp 20 (16 * e.lg * (32 / 32)) < e.vl := by
  refine ⟨_, _, rfl, rfl, rfl, ?_⟩
  decide +kernel

/-- 12 R207, 25 R346: with 20 of 60 elements issued the entry stops at 32; its elements below 32 are written. A gather stops at any. -/
theorem test_stops_inside :
    (stopForGang false (comeToStop begun)).me.v.vstart = 32 ∧
    ((List.range 4).map fun k => ((stopForGang false (comeToStop begun)).slot 2).elem 32 k) = [6, 1, 7, 0x80000003] ∧
    (let s := markIssued 2 (queued { cpt with me := { cpt.me with v := { cpt.me.v with masks := cpt.me.v.masks.set 1 13 } } }
       (.vldx 1 8 1 14 .i32))
     (stopForGang false (comeToStop s)).me.v.vdone = 5 ∧ (stopForGang false (comeToStop s)).me.v.vstart = 0) := by decide +kernel

/-- A stop that PD has held off for PDLIM, and a record that waits for a slot that has become free. -/
theorem test_meets_held_off :
    (∀ halt ∈ [true, false], let s : State := { cpt with now := 50000, me := { cpt.me with pd := true }
                                                         gangs := cpt.gangs.map fun p => (p.1, { p.2 with stopReq := some (0, halt) }) }
     (∃ x, s.gang? s.me.id.gang = some x ∧ x.stopReq = some (0, halt) ∧ x.state = .running) ∧ s.strand? 0 = some s.me ∧ s.me.fliven = false ∧
     stopHeld s s.me.id.gang 0 = false) ∧
    (let r : HeldRec := { core := 0, bytes := List.replicate 64 7 }
     let s := withPart cpt { frqbase := 0x50000, held := [r] }
     (s.part 0).held = [r] ∧ frqSlot s 0 = .ok (some (.gen 0x1040000 .normal 1)) ∧ r.bytes.length = 64) := by
  refine ⟨fun halt _ => ⟨⟨_, rfl, rfl, rfl⟩, rfl, rfl, ?_⟩, ?_⟩
  · revert halt; decide +kernel
  · decide +kernel

/-! Waits, engines, homes. -/

/-- The strand has waited for 100 ns, its WTO, on an instruction or on nothing at decode. -/
def waiting (s : State) (i : Option Instr) : State :=
  { s with now := 100, me := { s.me with wto := 100, wait := { since := some 0, on_ := i } } }

theorem test_meets_waits : (let s := waiting cpt (some (.abwait 5 8))
     s.me.status = .ready ∧ s.me.wto ≠ 0 ∧ s.me.wait.since = some 0 ∧ 0 + s.me.wto.toNat ≤ s.now ∧ Free s [9, 5, 8] ∧
     s.me.wait.on_ = some (.abwait 5 8) ∧ s.me.fliven = false ∧ s.me.ord.path = [] ∧ barrierTrap s s.agent (s.rd 5) = .ok (0, 0) ∧
     (barrierIn s (.spad s.me.id.gang 0 0)).broken = false) ∧
    (let s := withPart (waiting cpt (some (.srwait 9 7 8))) { sralloc := 0x100000 }
     s.me.wait.on_ = some (.srwait 9 7 8) ∧ NoReleases s ∧ (s.rd 7).toNat < 16384 ∧
     ((s.rd 7).toNat + 16384 - (s.part s.me.part).sralloc.toNat % 16384) % 16384 < (s.part s.me.part).sralloc.toNat / 2 ^ 16 % 2 ^ 15 ∧
     (syncAt s (dieOfKey s.key) (s.rd 7).toNat).toNat < (s.rd 8).toNat) ∧
    (let s := waiting cpt none; s.me.wait.on_ = none ∧ Free s [9, 5, 8]) ∧
    (let s := waiting cpt (some (.waituntil 7)); s.me.status = .ready ∧ s.me.wait.on_ = some (.waituntil 7) ∧ (s.rd 7).toNat ≤ s.now) ∧
    (let s := queued cpt (.tcopy 9 5 6)
     s.me.status = .ready ∧ s.me.queue = .entry (entryFor cpt (.tcopy 9 5 6)) :: [] ∧ (entryFor cpt (.tcopy 9 5 6)).instr = .tcopy 9 5 6) ∧
    Idle cpt ∧ (flv.key = 1024 + 0 ∧ flv.me.fliven = true ∧ flv.me.status = .ready ∧ flv.me.fl.trapped = false) := by
  refine ⟨⟨rfl, ?_, rfl, ?_, free_of rfl _, rfl, rfl, rfl, ?_, ?_⟩, ⟨rfl, no_releases_of, ?_, ?_, ?_⟩, ⟨rfl, free_of rfl _⟩, ⟨rfl, rfl, ?_⟩, ⟨rfl, rfl, rfl⟩,
    idle_of rfl, rfl, rfl, rfl, rfl⟩ <;> decide +kernel

/-- A chunk of one element of four bytes, from scratchpad to page 1. -/
def landing : Chunk :=
  { gang := 1, strand := 32, seq := 0, chan := 0, row := 0, scope := .core, stag := .raw, ctag := .raw, ssize := 4, dsize := 4, rop := 0
    src := { first := .spad 1 0 0, last := .spad 1 0 3, len := 4, head := 4 }
    dst := { first := at1.loc, last := at1.loc.plus 3, len := 4, head := 4 }, lo := 0, n := 1, bar := none, mcast := 0, data := [] }

theorem test_meets_landings :
    (let s := cpt.modCore 0 fun x => { x with chunks := [landing] }
     (s.core 0).chunks[0]? = some landing ∧ NoneEnded s ∧ landing.data = [] ∧ spanLost s landing.src landing.ssize landing.lo 1 = false ∧
     spanLost s landing.dst landing.dsize landing.lo 1 = false ∧ landing.n = 1 ∧ landing.rop = 0 ∧ landing.ctag = .raw ∧ landing.bar = none ∧
     landing.dst.at (landing.lo * landing.dsize) = .gen 0x1000000 .normal 1) ∧
    (let w : TileWrite := { gang := 1, tile := 3, bits := 1, side := 0, tag := .bf16, depth := 4, bar := none, bytes := 16384 }
     let s := cpt.modCore 0 fun x => { x with tileWrites := [w] }
     (s.core 0).tileWrites = [w] ∧ NoneEnded s ∧ w.bar = none) ∧
    (let m : RedMsg := { strand := 32, gang := 1, off := 8, size := 4, tag := .i32, op := .add, value := 5 }
     let s := cpt.modCore 0 fun x => { x with redMsgs := [m] }
     (s.core 0).redMsgs[0]? = some m ∧ NoneEnded s ∧ ∃ g, s.gang? m.gang = some g ∧ g.evicted = []) := by
  refine ⟨⟨?_, ?_, ?_, ?_, ?_, ?_, ?_, ?_, ?_, ?_⟩, ⟨?_, ?_, ?_⟩, ⟨?_, ?_, ⟨_, rfl, rfl⟩⟩⟩
  all_goals (try simp only [NoneEnded])
  all_goals decide +kernel

/-- Slot q3 is bound to four words of page 1, or of a page without a translation. -/
def streaming (a : Word) : State :=
  let x : StreamSlot := { bound := true, slot := 8, tag := .i32, base := a, strides := [4, 0, 0], extents := [4, 1, 1] }
  { cpt with me := { cpt.me with v := cpt.me.v.setStream 3 x } }

theorem test_meets_refills : (let s := streaming 0x10000; let x := s.me.v.stream 3; let u := touch s s.agent (x.addr 0)
     s.me.status = .ready ∧ x.bound = true ∧ x.pos + x.ahead.length = 0 ∧ 0 < x.total ∧ x.ahead.length * (x.tag.width / 8) < 8192 ∧
     check u s.agent .vload (x.addr 0) 4 4 = .ok at1 ∧ isRemote at1.loc.pa = false ∧ (s.core s.myCore).l1 = []) ∧
    (let s := streaming 0x60000; let x := s.me.v.stream 3; let u := touch s s.agent (x.addr 0)
     x.bound = true ∧ 0 < x.total ∧ check u s.agent .vload (x.addr 0) 4 4 = .error { cause := .notPresent, addr := 0x60000 }) := by
  decide +kernel

def withStream (x : Stream) : State := { cpt with streams := [(0x20000, x)] }

/-- An arrival of two records; five items where the cap is four, twice that in the coarsest course. -/
theorem test_meets_course_engines :
    (let a : Arrival := { strand := 32, seq := 0, records := [7, 8] }
     let x : Stream := { rested with arrivals := [a] }
     Map.get? (withStream x).streams 0x20000 = some x ∧ x.arrivals = [a] ∧ a.refused = false ∧ a.records = 7 :: [8] ∧ canTake x = true ∧
     0 < x.levels ∧ x.head + a.records.length ≤ 2 ^ 63) ∧
    (let x : Stream := { rested with head := 7, comb := 4, courses := [{ items := [1, 2, 3, 4, 5, 6, 7] }, { pages := [{ va := 0x50000, pa := 0x1040000, written := 0, gone := 0 }] }] }
     x.freed = [] ∧ x.begun = none ∧ x.work = some 0 ∧ 0 + 1 < x.levels ∧ x.withinBudget (withStream x).now = true ∧ (x.course 0).items = 1 :: 2 :: [3, 4, 5, 6, 7] ∧
     x.combine 1 2 = .ok 1) ∧
    (let x : Stream := { rested with head := 10, courses := [{}, { items := [1, 2, 3, 4, 5] }] }
     x.begun = none ∧ x.work = some 1 ∧ 1 + 1 = x.levels) := by decide +kernel

/-- A reservation, a shoot-down that waits for two dies, or for a peer for 10 ms, and a change on its way to a mirror. -/
theorem test_meets_homes :
    (let r : Reservation := { off := 8, data := [1, 2], strand := 32, seq := 0 }
     let s := withApp cpt { tail := 16, pending := [r] }
     (s.app 0x101).pending[0]? = some r) ∧
    (let x : Shoot := { owner := 0, part := 0, vpage := 1, big := false, frames := [0x100], free := false, clear := false, dies := [0, 3], peers := [9], since := 0 }
     let s := withPart { cpt with shoots := [x], now := 10000000 } { frqsize := 16, frqtail := 16 }
     s.shoots = [x] ∧ 3 ∈ x.dies ∧ 3 < 4 ∧ 9 ∈ x.peers ∧ x.since + 10000000 ≤ s.now ∧ x.dies ≠ [] ∧ x.dies.filter (· != 3) ≠ [] ∧
     (s.part x.part).frqsize ≤ ((s.part x.part).frqtail + 2 ^ 32 - (s.part x.part).frqhead) % 2 ^ 32 ∧
     (let y := { x with dies := [3], peers := [] }; y.dies.filter (· != 3) = [] ∧ y.peers = [])) ∧
    (let s := cpt.modDie 1 fun x => { x with syncPend := [(7, { val := 5 })] }
     (s.die 1).syncPend = (7, { val := 5 }) :: []) := by decide +kernel

/-! Steps, encodings, memory. -/

/-- A word that decodes and one that does not stand at the PC; the agenda is empty or gives the strand its turn. -/
theorem test_meets_a_step :
    (∀ s ∈ [cpt, { cpt with agenda := [.decode 0 true] }], s.stage = .ready ∧ s.me.status = .ready ∧ s.me.sleepsInLanes = false ∧
      owedReady s = [] ∧ check (touch { s with agenda := [], later := true } s.agent s.me.pc) s.agent .fetch s.me.pc 4 4 = .ok at1 ∧
      check (touch { s with agenda := [], later := s.later } s.agent s.me.pc) s.agent .fetch s.me.pc 4 4 = .ok at1) ∧
    decode (BitVec.ofNat 32 (numberAt cpt at1.loc 4)) = .ok (.vadd 0 0 0 (.v 0)) ∧
    decode (BitVec.ofNat 32 (numberAt (withBytes cpt 0x1000000 4 0xFFFFFFFF) at1.loc 4)) = .error .notAllocated := by
  refine ⟨?_, ?_, ?_⟩
  · decide +kernel
  · rfl
  · rfl

theorem test_meets_canonical : Canonical State.reset ∧ Canonical cpt ∧
    (match step State.reset with | .next _ => true | _ => false) = true ∧ (match step cpt with | .next _ => true | _ => false) = true := by
  refine ⟨⟨rfl, fun g hg => by cases hg⟩, ⟨rfl, ?_⟩, ?_, ?_⟩ <;> decide +kernel

/-! Further witnesses: what the lanes and the memory order have sent, first faults, stops, gates. -/

theorem silent_of {s : State} (h : ((s.core s.myCore).stores.isEmpty && s.cores.all fun c => c.2.redMsgs.isEmpty) = true) : NothingSent s := by
  simp only [Bool.and_eq_true, List.isEmpty_iff, List.all_eq_true] at h
  exact ⟨fun v hv => by simp [h.1] at hv, fun c hc r hr => by simp [h.2 c hc] at hr⟩

/-- Nothing of the strand is on the way behind the vector words of memory. -/
theorem test_meets_nothing_sent :
    (∀ i ∈ [Instr.vld 0 8 1 0 .i32 false, .vldx 0 8 1 14 .i32, .vst 0 1 1 0 false, .vstx 0 1 1 14, .vredm 0 3 1 14 .fadd], NothingSent (queued cpt i)) ∧
    NothingSent (queued bounded (.vldb 0 8 1 14 .i32)) ∧
    (let s := withRegs cpt [(2, 0x10080)]; NothingSent (queued s (.vld 0 8 1 2 .e2m1 false)) ∧ NothingSent (queued s (.vst 0 10 1 2 false))) ∧
    ∀ i ∈ [Instr.vwaitall 1 1 15, .vwaitany 1 1 15], NothingSent (queuedAsleep cpt i) ∧ NothingSent (queuedAsleep unmet i) :=
  ⟨fun i hi => silent_of (by revert i; decide +kernel), silent_of (by decide +kernel), ⟨silent_of (by decide +kernel), silent_of (by decide +kernel)⟩,
    fun i hi => ⟨silent_of (by revert i; decide +kernel), silent_of (by revert i; decide +kernel)⟩⟩

/-- Loads, stores and AMOs are performed at once where nothing is left pending; ordered accesses and AMOs of a page without a translation
and of an APPEND page. -/
theorem test_meets_ordered_accesses : cpt.later = false ∧
    (let s := withRegs cpt [(1, 0x60000)]
     Idle s ∧ ∀ a ∈ [Access.load, .store, .amo], ∀ n ∈ [4, 8], check (touch s s.agent (s.rd 1)) s.agent a (s.rd 1) n n
       = .error { cause := .notPresent, addr := 0x60000 }) ∧
    (Idle cpt ∧ ∀ a ∈ [Access.store, .amo], check (touch cpt cpt.agent (cpt.rd 2)) cpt.agent a (cpt.rd 2) 8 8
       = .error { cause := .pageType, addr := 0x20000 }) := by
  refine ⟨rfl, ⟨idle_of rfl, ?_⟩, idle_of rfl, ?_⟩ <;> decide +kernel

/-- A relaxed LDO and AMOADD that are left pending, and such an AMO that is performed next. -/
theorem test_meets_relaxed_waiting :
    (let s := late cpt
     Free s [7] ∧ s.me.ord.relFence = none ∧ (∀ y ∈ s.me.ord.path, y.overlaps at1.loc 8 = false) ∧
     check (touch s s.agent (s.rd 1)) s.agent .load (s.rd 1) 8 8 = .ok at1 ∧
     check (touch s s.agent (s.rd 1)) s.agent .amo (s.rd 1) 8 8 = .ok at1) ∧
    (let z : PendAccess := { loc := at1.loc, data := [], rt := .own, load := some ⟨9, 8, false⟩, amo := some (.add, 5, 0) }
     let u : State := { cpt with agenda := [.perform 0 0], me := { cpt.me with ord := { path := [z] } } }
     u.agenda = .perform u.key 0 :: [] ∧ Unasked u ∧ u.me.ord.path[0]? = some z ∧ (∀ y ∈ u.me.ord.path.take 0, ¬ ComesAfter z y)) := by
  refine ⟨⟨free_of rfl _, rfl, fun x hx => (List.not_mem_nil hx).elim, ?_, ?_⟩, rfl, ?_, rfl, fun x hx => (List.not_mem_nil hx).elim⟩
  · decide +kernel
  · decide +kernel
  · simp only [Unasked]; decide +kernel

/-- A stop whose record has a slot. -/
theorem test_meets_record_written : let s := withPart cpt { frqbase := 0x50000, frqtail := 17, frqhead := 2 }
    let f : Trap := { cause := .fp }
    let m := { s.me.stop 0 f with queue := [] }
    let w := saveStrand { s with me := m } m
    s.me.fliven = false ∧ (s.part s.me.id.pid).held = [] ∧ s.me.queue = [] ∧ (s.part s.me.id.pid).savesize = 0 ∧
    frqSlot w s.me.id.pid = .ok (some (.gen 0x1040040 .normal 1)) := by decide +kernel

/-- Gate 3 of a table of zeros admits no level; a table on a page without a translation; no request to stop is pending. -/
theorem test_meets_gate_faults :
    (let s := withPart cpt { gtbase := 0x10000 }
     s.me.fliven = false ∧ Idle s ∧ gateEntry s (3 : BitVec 12).toNat = ((gateEntry s 3).1, .ok (List.replicate 16 0)) ∧
     ¬ Admits (List.replicate 16 0) s.me.level) ∧
    (let s := withPart cpt { gtbase := 0x60000 }
     let a := (s.part s.me.part).gtbase + BitVec.ofNat 64 (16 * (3 : BitVec 12).toNat)
     s.me.fliven = false ∧ Idle s ∧ leafFor (touch s s.agent a) s.agent a.toNat = .error { cause := .notPresent, addr := 0x60030 }) ∧
    (∀ g, gated.gang? gated.me.id.gang = some g → g.stopReq = none) := by
  refine ⟨⟨rfl, idle_of rfl, Prod.ext rfl ?_, fun h => ?_⟩, ⟨rfl, idle_of rfl, ?_⟩, fun g hg => ?_⟩
  · decide +kernel
  · exact absurd h.valid.1 (by decide +kernel)
  · decide +kernel
  · have : gated.gang? gated.me.id.gang = cpt.gang? 1 := rfl
    rw [this] at hg
    have : g = { gid := 0, launch := 1, part := 0, cluster := 0, cids := [0], keys := [0], state := .running, task := { ngang := 1, spad := 4 } } :=
      (Option.some.inj hg).symm
    subst this
    rfl

/-- One waiting access is performed next. -/
def performing (s : State) (l : List PendAccess) (n : Nat) : State := { s with agenda := [.perform s.key n], me := { s.me with ord := { path := l } } }

/-- A release that waits alone and behind an access to other bytes; a store with a release fence before it; an access to a DEVICE page behind
another; events at a barrier. -/
theorem test_meets_releases_performed :
    let y : PendAccess := { loc := at5.loc, data := [1, 2], rt := .own }
    let r : PendAccess := { loc := at1.loc, data := List.replicate 8 1, rt := .uc, rel := some .device, own := true }
    let d : PendAccess := { loc := at4.loc, data := [1], rt := .own }
    let e : PendAccess := { d with loc := at4.loc.plus 8 }
    (∀ p ∈ [([r], 0), ([y, r], 1), ([d, e], 1)], let u := performing cpt p.1 p.2; u.agenda = .perform u.key p.2 :: [] ∧ Unasked u) ∧
    ComesAfter r y ∧ ComesAfter e d ∧ ComesAfter d { y with fences := 1 } ∧
    ∀ v ∈ [BarrierEvent.init 65535, .expect 100, .arrive, .land 64, .lose], let x : PendAccess := { loc := at5.loc, data := [], rt := .uc, bar := some v }
      let u := performing (withSpad cpt [(4, 1), (6, 1)]) [x] 0
      u.me.ord.path[0]? = some x ∧ lostPage u x.loc = false ∧ (u.gang? 1).isSome = true ∧ (∀ n, x.bar = some (.init n) → n < 2 ^ 16) := by
  refine ⟨?_, .inl rfl, .inr (.inr (.inr ⟨⟨_, _, rfl⟩, _, _, rfl⟩)), .inr (.inl ⟨.inl rfl, by decide⟩), fun v hv => ⟨rfl, rfl, rfl, fun n h => ?_⟩⟩
  · simp only [Unasked]; decide +kernel
  · simp only [List.mem_cons, List.not_mem_nil, or_false] at hv
    rcases hv with rfl | rfl | rfl | rfl | rfl <;> (simp_all; try omega)

/-! Further witnesses: the order of the faults of one address. -/

/-- Page 0 of the gang's scratchpad lies in its backing area at 0x3000000, a line of which is lost or not. -/
def backed (lost : List Nat) : State := { cpt.modGang 1 fun g => { g with backing := 0x3000000, evicted := [(0, 0)] } with lostLines := lost }

/-- A scratchpad address with a bit beyond the form, misaligned, of a core that the gang has not, beyond its last page, and within it. -/
theorem test_meets_scratchpad_faults :
    (∀ n ∈ [0x8000000000100000, 0x8000000001000000, 0xC000000000000000], let x := (BitVec.ofNat 64 n).toNat
      2 ^ 63 ≤ x ∧ (x / 2 ^ 20 % 2 = 1 ∨ x / 2 ^ 24 % 2 ^ 39 ≠ 0)) ∧
    (∀ n ∈ [0x8000000000000004, 0x800000000000FFF8, 0x8000000000010000, 0x8000000000200000], let x := (BitVec.ofNat 64 n).toNat
      2 ^ 63 ≤ x ∧ ¬ (x / 2 ^ 20 % 2 = 1 ∨ x / 2 ^ 24 % 2 ^ 39 ≠ 0)) ∧
    (0x8000000000000004 : Word).toNat % 8 ≠ 0 ∧
    (∀ g, cpt.gang? cpt.agent.gang = some g → ∀ n ∈ [0x8000000000010000, 0x8000000000200000], let x := (BitVec.ofNat 64 n).toNat
      x % 8 = 0 ∧ (x / 2 ^ 21 % 8 ∈ g.cids → x % 2 ^ 20 / 0x4000 < g.task.spad → cpt.agent.core = none)) ∧
    ∀ c ∈ [(cpt, false), (backed [0x3000000 / 128], true), (backed [], false)], let s := c.1
      ∃ g, s.agent.core = some 0 ∧ s.gang? s.agent.gang = some g ∧
        (0x8000000000003FF8 : Word).toNat / 2 ^ 21 % 8 ∈ g.cids ∧ (0x800000000000FFF8 : Word).toNat % 2 ^ 20 / 0x4000 < g.task.spad ∧
        lostPage s (.spad 1 0 0x3FF8) = c.2 := by
  refine ⟨by decide +kernel, by decide +kernel, by decide, ?_, ?_⟩
  · intro g hg
    have hc : g.cids = [0] ∧ g.task.spad = 4 := by
      cases hg.symm.trans (rfl : cpt.gang? cpt.agent.gang = some _)
      exact ⟨rfl, rfl⟩
    rw [hc.1, hc.2]
    decide +kernel
  · intro c hc
    simp only [List.mem_cons, List.not_mem_nil, or_false] at hc
    rcases hc with rfl | rfl | rfl <;> exact ⟨_, rfl, rfl, by decide +kernel⟩

/-- The tables of `mapped` and no translation in a buffer. -/
def bare (s : State) : State := { Tests.mapped s with dies := [] }

/-- Walks that end at a lost line, at V = 0 in the root and at a leaf's place, at malformed pointers, a pointer in the last table, malformed
leaves of both sizes, frames of another type and one that has left the share. -/
theorem test_meets_walk_faults : let s := bare cpt
    (∀ c ∈ [({ s with lostLines := [0x800 / 128] }, (0x10000 : Word), 0), (withBytes s 0x800 8 0, 0x10000, 0), (s, 0x60000, 3),
        (withBytes s 0x800 8 0x1005, 0x10000, 0), (withBytes s 0x1000 8 0x10000000001801, 0x10000, 1), (withBytes s 0x2010 8 0x2801, 0x20000, 3),
        (withBytes s 0x2008 8 0x1000433, 0x10000, 3), (withBytes s 0x1800 8 0x1010033, 0x10000, 2), (withBytes s 0x1800 8 0x1000037, 0x10000, 2),
        ({ s with apps := [(0x100, {})] }, 0x10000, 3), ({ s with onces := [(0x100, {})] }, 0x10000, 3), ({ s with gone := [0x100] }, 0x10000, 3)],
      c.2.1.toNat < 2 ^ 48 ∧ c.2.1.toNat % 8 = 0 ∧ tlbLookup c.1 c.1.agent c.2.1.toNat = none ∧ TableReached c.1 c.1.agent.part c.2.1.toNat c.2.2) ∧
    ({ s with lostLines := [0x800 / 128] } : State).lost (slotAt { s with lostLines := [0x800 / 128] } 0 0x10000 0) 8 = true ∧
    (∀ c ∈ [(withBytes s 0x800 8 0, 0x10000, 0), (s, 0x60000, 3)], entryAt c.1 0 c.2.1 c.2.2 % 2 = 0) ∧
    (∀ c ∈ [(withBytes s 0x800 8 0x1005, 0), (withBytes s 0x1000 8 0x10000000001801, 1), (withBytes s 0x2008 8 0x2801, 3)],
      let e := entryAt c.1 0 0x10000 c.2; e % 4 = 1 ∧ (c.2 = 3 ∨ e / 4 % 2 ^ 9 ≠ 0 ∨ e / 2 ^ 52 ≠ 0)) ∧
    ∀ c ∈ [(withBytes s 0x2008 8 0x1000433, 3), (withBytes s 0x1800 8 0x1010033, 2), (withBytes s 0x1800 8 0x1000037, 2),
        ({ s with apps := [(0x100, {})] }, 3), ({ s with onces := [(0x100, {})] }, 3), ({ s with gone := [0x100] }, 3)],
      let e := entryAt c.1 0 0x10000 c.2
      e % 4 = 3 ∧ (¬ LeafFor c.1 0 e c.2 ∨ Clash c.1 e (Claim.mapped e c.2 0x10000 / 65536)) := by
  unfold TableReached LeafFor Clash
  decide +kernel

/-- A translation of a page in the buffers of a die. -/
def buffered (s : State) (l : List TlbEntry) : State := { s with dies := [(0, { tlb := l })] }

/-- A leaf found in a buffer, at a walk, and at a walk to a page of 16 MiB; then pages that are RELEASING, not writable, for libraries,
of another type, above the filled mark, lost, and none of these. -/
theorem test_meets_page_faults :
    UsesLeaf cpt cpt.agent 0x10000 0x1000033 3 ∧ UsesLeaf (bare cpt) cpt.agent 0x1FFF8 0x1000073 3 ∧
    UsesLeaf (withBytes (bare cpt) 0x1808 8 0x2000033) cpt.agent 0x1FFFFF8 0x2000033 2 ∧
    (∀ c ∈ [({ cpt with apps := [(0x101, { state := .releasing })] }, (0x20000 : Word), 0x1010037),
        (buffered cpt [{ pageOf 1 0x100 0 with leaf := 0x1000023 }], 0x10000, 0x1000023),
        (buffered cpt [{ pageOf 1 0x100 0 with leaf := 0x10000B3 }], 0x10000, 0x10000B3), (cpt, 0x30000, 0x102003B), (cpt, 0x40000, 0x103003F),
        ({ cpt with apps := [(0x101, { mark := 8, tail := 16 })] }, 0x20008, 0x1010037),
        ({ cpt with apps := [(0x101, { mark := 8, tail := 16 })] }, 0x20000, 0x1010037), ({ cpt with lostLines := [0x20000] }, 0x10000, 0x1000033)],
      c.2.1.toNat < 2 ^ 48 ∧ c.2.1.toNat % 8 = 0 ∧ (tlbLookup c.1 c.1.agent c.2.1.toNat).any (fun b => b.leaf == c.2.2 && !b.big) = true ∧
      c.2.2 / 256 % 4 ≠ 2) ∧
    0x1000023 / 16 % 2 = 0 ∧ 0x10000B3 / 128 % 2 = 1 ∧ cpt.agent.level = .k ∧ leafType 0x102003B = .once ∧ leafType 0x1010037 = .append ∧
    leafType 0x103003F = .device ∧ 8 < Claim.mapped 0x1010037 3 0x20008 % 65536 + 8 ∧ ¬ 8 < Claim.mapped 0x1010037 3 0x20000 % 65536 + 8 ∧
    ({ cpt with lostLines := [0x20000] } : State).lost (Claim.mapped 0x1000033 3 0x10000) 8 = true ∧ cpt.lost (Claim.mapped 0x1000033 3 0x10000) 8 = false := by
  refine ⟨.inl ⟨_, rfl, rfl, rfl⟩, .inr ?_, .inr ?_, ?_⟩
  · unfold TableReached LeafFor Clash; decide +kernel
  · unfold TableReached LeafFor Clash; decide +kernel
  · decide +kernel

/-! Further witnesses: homes, queues, channels. -/

/-- Appends whose bytes go to a lost line, and to sound ones. -/
theorem test_meets_append_to_lost_line : Idle cpt ∧
    (∀ lost ∈ [[], [0x101 * 512]],
      let s := { withApp cpt { tail := 8 } with lostLines := lost }
      let w := withRegs s [(2, 0x20008)]
      let u := touch s s.agent (s.rd 2)
      let v := touch w w.agent (w.rd 2)
      check u s.agent (.appendOp true) (s.rd 2) 1 1 = .ok at2 ∧ u.app 0x101 = { tail := 8 } ∧
      check v w.agent (.appendOp true) (w.rd 2) 8 8 = .ok { at2 with loc := at2.loc.plus 8 } ∧ (w.rd 2).toNat % 65536 = 8 ∧
      u.lost (0x101 * 65536 + 8) 8 = decide (lost ≠ []) ∧ v.lost (0x101 * 65536 + 8) 8 = decide (lost ≠ [])) ∧
    cpt.me.ord.relFence = none ∧
    (∀ tl ∈ [65520, 65528], let s := withApp cpt { tail := tl }; let u := queued s (.vapp 9 2 1)
      (touch u u.agent (s.rd 2)).lost (0x101 * 65536 + tl) 16 = false) := by
  refine ⟨idle_of rfl, ?_, rfl, ?_⟩ <;> decide +kernel

/-- A SEAL that begins on a page in each state. -/
theorem test_meets_seal_begins : cpt.me.wait.frame = none ∧ cpt.me.ord.path = [] ∧
    (∀ p ∈ [({} : AppPage), { state := .sealed_ }, { state := .sealing }], let s := withApp cpt p
      let u := touch s s.agent (s.rd 2)
      u.app 0x101 = p ∧ p.pending = [] ∧ p.engineHeld = false ∧ check u s.agent (.appendOp true) (s.rd 2) 1 1 = .ok at2) := by
  refine ⟨rfl, rfl, ?_⟩; decide +kernel

/-- OCLEAR with nothing on the way: no core has a chunk or a vector store. -/
theorem test_meets_oclear_quiet : ∀ c ∈ cpt.cores, c.2.chunks = [] ∧ c.2.stores = [] := by decide +kernel

/-- ENQ that has read no record yet, at the last queue, which is closed, beyond it, and from a misaligned record. -/
theorem test_meets_enq_faults :
    (let s := withRegs (ringed cpt) [(1, 63), (2, 64), (3, 4), (4, 0x10040)]
     Idle s ∧ s.me.wait.record = none ∧ openToEnq s s.me.part (s.rd 1).toNat = false ∧ 64 ≤ (s.rd 2).toNat ∧ (s.rd 3).toNat < 64 ∧
     openToEnq s s.me.part (s.rd 3).toNat = true ∧ (s.rd 4).toNat % 128 ≠ 0) := by
  refine ⟨idle_of rfl, rfl, ?_, ?_, ?_, ?_, ?_⟩ <;> decide +kernel

/-- A quiet channel with a landed line. -/
theorem test_meets_cdrain_landed : NoLoads cpt ∧
    (let s := cpt.modCore 0 fun x => { x with chans := [(7, { landed := [{ line := 0x20000 }] })] }
     let x := Map.getD (s.core s.myCore).chans ((7 : BitVec 6).toNat % 8) {}
     NoLoads s ∧ s.me.fliven = false ∧ s.me.queue = [] ∧ s.me.status = .ready ∧ (s.core s.myCore).chunks = [] ∧ x.lost = false ∧
     x.landed = [{ line := 0x20000 }]) := by
  refine ⟨(fun _ hp => nomatch hp), (fun _ hp => nomatch hp), rfl, rfl, rfl, ?_, ?_, ?_⟩ <;> decide +kernel

/-- SHOOT of a page in a table, FLUSH and FREE, with nothing on the way. -/
def readyB (s : State) (a b : SReg) (at_ e lv : Nat) : Bool :=
  decide (s.me.level.num ≤ 2) && s.me.queue == [] && s.me.ord.path == [] && !s.later && s.me.wait.mark == none && s.shoots == [] &&
    (s.strands.all fun p => p.2.ord.path == []) && (s.cores.all fun c => c.2.chunks == [] && c.2.stores == []) &&
    (s.apps.all fun p => p.2.pending == []) && (leafOf s (s.rd a).toNat == some (at_, e, lv) && !shootLost s (s.rd a).toNat) &&
    ((s.rd b == 0 && s.me.level != .l) || (s.rd b == 1 && leafGood s s.me.part (at_, e, lv) && (s.me.level != .l || e / 64 % 2 == 1)))

theorem shoot_ready {s : State} {d a b : SReg} {at_ e lv : Nat} (h : readyB s a b at_ e lv = true) : ShootReady s d a b at_ e lv := by
  simp only [readyB, Bool.and_eq_true, Bool.or_eq_true, beq_iff_eq, Bool.not_eq_true', decide_eq_true_eq, List.all_eq_true, bne_iff_ne] at h
  obtain ⟨⟨⟨⟨⟨⟨⟨⟨⟨⟨h1, h2⟩, h3⟩, h4⟩, h5⟩, h6⟩, h7⟩, h8⟩, h9⟩, h10, hs⟩, h11⟩ := h
  refine ⟨h1, free_of h2 _ h3, ⟨h4, h5, h6⟩, ⟨h7, h8, h9⟩, h10, hs, ?_⟩
  rcases h11 with h | ⟨⟨h, k⟩, m⟩
  · exact .inl h
  · exact .inr ⟨h, k, fun hl => m.resolve_left (fun hn => hn hl)⟩

def freeing (op : Word) : State := withRegs (mapped (withApp flv { state := .sealed_ })) [(1, 0x10000), (2, op)]
def freeingStream : State := { freeing 1 with streams := [(0x20000, rested)] }
def freeingHeld : State := { freeing 1 with peerHolds := [(0x100, [7])] }

/-- The stream's header lies elsewhere; the page that is freed is spare, or holds items of a course. -/
def pooled : List Machine.Stream :=
  [{ rested with pa := 0x1010000, spare := [(0x60000, 0x1000000)] },
   { rested with pa := 0x1010000, courses := [{ items := [10, 11], pages := [{ va := 0x60000, pa := 0x1000000, written := 2, gone := 0 }] }, {}] }]

/-- The page has no peers and no stream, holds the header of a stream, or has copies at a peer. -/
theorem test_meets_shoot_of_pages :
    (∀ op ∈ [(0 : Word), 1], ShootReady (freeing op) 9 1 2 0x2008 0x1000073 0 ∧ (freeing op).peerHolds = [] ∧ (freeing op).streams = []) ∧
    (ShootReady freeingStream 9 1 2 0x2008 0x1000073 0 ∧ freeingStream.peerHolds = [] ∧ freeingStream.rd 2 = 1 ∧
      Map.get? freeingStream.streams 0x20000 = some rested ∧ rested.pa / 65536 ∈ framesOf 0x1000073 0) ∧
    (ShootReady freeingHeld 9 1 2 0x2008 0x1000073 0 ∧ freeingHeld.rd 2 = 1 ∧ 0x100 = leafBase 0x1000073 / 65536 ∧
      7 ∈ Map.getD freeingHeld.peerHolds 0x100 []) ∧
    ∀ x ∈ pooled, let s := { freeing 1 with streams := [(0x20000, x)] }
      ShootReady s 9 1 2 0x2008 0x1000073 0 ∧ s.rd 2 = 1 ∧ s.peerHolds = [] ∧ x.pa / 65536 ∉ framesOf 0x1000073 0 ∧
      (framesOf 0x1000073 0).filter (fun f => decide (f ∈ poolFrames x)) = [0x100] := by
  refine ⟨?_, ?_, ?_, fun x hx => ⟨shoot_ready ?_, ?_, ?_, ?_, ?_⟩⟩
  case refine_4 | refine_5 | refine_6 | refine_7 | refine_8 => revert x; decide +kernel
  · simp only [List.forall_mem_cons, List.not_mem_nil, false_implies, implies_true, and_true]
    exact ⟨⟨shoot_ready (by decide +kernel), rfl, rfl⟩, shoot_ready (by decide +kernel), rfl, rfl⟩
  · exact ⟨shoot_ready (by decide +kernel), rfl, by decide +kernel, rfl, by decide +kernel⟩
  · exact ⟨shoot_ready (by decide +kernel), by decide +kernel⟩

/-! Further witnesses: a Fliven strand and a compute strand at place 4, core 1 of cluster 0. -/

theorem mem_of_get {α : Type} {m : Map α} {k : Nat} {v : α} (h : Map.get? m k = some v) : (k, v) ∈ m := by
  induction m with
  | nil => cases h
  | cons p rest ih =>
    obtain ⟨j, w⟩ := p
    simp only [Map.get?] at h
    split at h
    · cases h; subst_vars; exact List.mem_cons_self
    · exact List.mem_cons_of_mem _ (ih h)

theorem mem_strands {s : State} {k : Nat} {x : Strand} (h : s.strand? k = some x) : (k, x) ∈ s.strands := by
  simp only [State.strand?] at h
  simp only [State.strands]
  split at h
  · cases h; subst_vars; exact List.mem_cons_self
  · exact List.mem_cons_of_mem _ (mem_of_get h)

/-- What the other strands of a gang do is checked over the list of strands. -/
theorem mates_of {s : State} {g k : Nat} {p : Status → Prop} {q : Status → Bool} (hq : ∀ x, q x = true → p x)
    (h : (s.strands.all fun y => y.1 == k || y.2.fliven || y.2.id.gang != g || y.2.status == .exited || y.2.status == .absent || q y.2.status) = true) :
    Mates s g k p := by
  intro j z hj hz hf hg
  have := List.all_eq_true.mp h _ (mem_strands hz)
  simp only [Bool.or_eq_true, beq_iff_eq, bne_iff_ne] at this
  rcases this with ((((h | h) | h) | h) | h) | h
  · exact absurd h hj
  · simp [hf] at h
  · exact absurd hg h
  · exact .inl h
  · exact .inr (.inl h)
  · exact .inr (.inr (hq _ h))

def gang4 : Gang :=
  { gid := 0, launch := 1, part := 0, cluster := 0, cids := [1], keys := [4], state := .running, task := { ngang := 1, spad := 4 } }

/-- s2 and s3 are handles of its third and of its second stop, s5 of a place that holds no strand; s0, s4, s6 and s7 are the actions. -/
def beside (x : Strand) (g : Gang) : State :=
  { withRegs flv [(1, 0x10000), (2, 0x30004), (3, 0x20004), (4, 1), (5, 0x3000C), (6, 2), (7, 3), (8, 4), (10, 0x2000)] with
    others := (4, x) :: flv.others, gangs := [(1, g)], launches := cpt.launches }

theorem test_meets_frqpop : let s := withPart (beside stopped4 gang4) { frqbase := 0x50000, frqtail := 1 }
    let at_ := (s.part s.me.part).frqbase + BitVec.ofNat 64 (64 * ((s.part s.me.part).frqhead % (s.part s.me.part).frqsize))
    let u := touch s s.agent (s.rd 1)
    s.me.level.num ≤ 1 ∧ Free s [9, 9 + 1, 1] ∧ s.me.ord.path = [] ∧ (s.rd 1).toNat % 64 = 0 ∧ check u s.agent .store (s.rd 1) 64 64 = .ok at1 ∧
    (s.part s.me.part).frqhead ≠ (s.part s.me.part).frqtail ∧ (s.part s.me.part).held = [] ∧
    check (touch u (hwAgent s.me.part (dieOfKey s.key)) at_) (hwAgent s.me.part (dieOfKey s.key)) .hwRead at_ 64 64
      = .ok { loc := .gen 0x1040000 .normal 1, leaf := 0x1040033 } ∧
    (Idle s ∧ (s.rd 2).toNat % 64 ≠ 0) ∧
    (let w := withRegs s [(1, 0x60000)]
     Idle w ∧ (w.rd 1).toNat % 64 = 0 ∧ check (touch w w.agent (w.rd 1)) w.agent .store (w.rd 1) 64 64
       = .error { cause := .notPresent, addr := 0x60000 }) := by
  refine ⟨?_, free_of rfl _, rfl, ?_, ?_, ?_, rfl, ?_, ⟨idle_of rfl, ?_⟩, idle_of rfl, ?_, ?_⟩ <;> decide +kernel

def running4 : Strand := { stopped4 with status := .ready, stopped := none, stopSeq := 2 }

theorem test_meets_halt :
    (let s := beside stopped4 gang4
     s.me.level.num ≤ 1 ∧ Free s [9, 2] ∧ s.me.wait.mark = none ∧ Handle s (s.rd 2) ∧ s.me.fliven = true ∧ OnePlace s ∧
     s.strand? (keyIn (s.rd 2)) = some stopped4 ∧ stopped4.fliven = false ∧ stopped4.id.pid = s.me.part ∧ stopped4.status = .stopped ∧
     Mates s stopped4.id.gang (keyIn (s.rd 2)) (· = .stopped) ∧ s.strand? (keyIn (s.rd 5)) = none ∧ ¬ Handle s (s.rd 10)) ∧
    (let x := { stopped4 with status := Status.exited }; (beside x gang4).strand? 4 = some x) ∧
    ∀ c ∈ [0, 0x3000000], let s := withPart (beside running4 { gang4 with ctx := c }) { frqsize := 16, frqtail := 16 }
      OnePlace s ∧ s.strand? (keyIn (s.rd 2)) = some running4 ∧ s.gang? running4.id.gang = some { gang4 with ctx := c } ∧ gang4.stopReq = none ∧
      gang4.mx = false ∧ running4.status = .ready ∧ running4.pd = false ∧ running4.wait.mark = none ∧ running4.queue = [] ∧
      running4.ord.path = [] ∧ Mates s running4.id.gang (keyIn (s.rd 2)) (fun _ => False) ∧
      (∀ c ∈ s.cores, c.2.chunks = [] ∧ c.2.tileWrites = [] ∧ c.2.redMsgs = [] ∧ c.2.stores = []) ∧
      (s.part running4.id.pid).frqsize ≤ ((s.part running4.id.pid).frqtail + 2 ^ 32 - (s.part running4.id.pid).frqhead) % 2 ^ 32 := by
  refine ⟨⟨?_, free_of rfl _, rfl, ⟨?_, ?_⟩, rfl, ⟨?_, ?_⟩, ?_, rfl, rfl, rfl, mates_of (q := (· == .stopped)) (fun x h => by simpa using h) ?_, ?_,
    fun h => ?_⟩, rfl, fun c hc => ⟨⟨?_, ?_⟩, ?_, rfl, rfl, ?_, rfl, rfl, rfl, rfl, rfl, mates_of (q := fun _ => false) (fun x h => by simp at h) ?_,
    ?_, ?_⟩⟩
  case refine_9 => exact absurd h.reserved.2 (by decide +kernel)
  all_goals first | decide +kernel | (revert c; decide +kernel)

/-- Actions 0 to 3 on the stopped strand, without and with TRAPH, stopped by a fault and by TRAP; on a gang with a context block; handles of
another stop and of no strand; and the strand of a halted gang. -/
theorem test_meets_resume :
    (let s := beside stopped4 gang4
     s.me.level.num ≤ 1 ∧ Free s [9, 2, 4] ∧ s.me.ord.path = [] ∧ s.me.fliven = true ∧ OnePlace s ∧ Idle s ∧ 3 < (s.rd 8).toNat ∧
     (s.rd 7).toNat ≤ 3 ∧ Handle s (s.rd 3) ∧ Handle s (s.rd 5) ∧ s.strand? (keyIn (s.rd 5)) = none ∧ (∀ g ∈ s.gangs, g.2.saved = []) ∧
     stopped4.stopSeq ≠ seqIn (s.rd 3) ∧ seqIn (s.rd 3) ≠ 0) ∧
    (∀ c ∈ [0, 0x3000000], ∀ x ∈ [stopped4, { stopped4 with traph := 0x100 }, { stopped4 with traph := 0x100, stopped := some { cause := .trap, info := 5 } }],
      let s := beside x { gang4 with ctx := c }
      StoppedAt s (s.rd 2) x { gang4 with ctx := c } ∧ OnePlace s ∧ Mates s x.id.gang (keyIn (s.rd 2)) (· ≠ .stopped) ∧
      s.rd 0 = 0 ∧ s.rd 4 = 1 ∧ s.rd 6 = 2 ∧ s.rd 7 = 3 ∧ x.stopped.isSome ∧ x.stopKind = 0) ∧
    (let g := { gang4 with state := .halted, saved := [(4, stopped4)] }
     let s := { beside stopped4 g with others := flv.others }
     OnePlace s ∧ Handle s (s.rd 2) ∧ s.strand? (keyIn (s.rd 2)) = none ∧ s.gang? 1 = some g ∧ g.part = s.me.part ∧ g.saved = [(keyIn (s.rd 2), stopped4)] ∧
     stopped4.stopSeq = seqIn (s.rd 2) ∧ g.ctx = 0 ∧ ∀ q ∈ s.gangs, q.1 = 1) := by
  refine ⟨⟨?_, free_of rfl _, rfl, rfl, ⟨?_, ?_⟩, idle_of rfl, ?_, ?_, ⟨?_, ?_⟩, ⟨?_, ?_⟩, ?_, ?_, ?_, ?_⟩,
    fun c hc x hx => ⟨⟨⟨?_, ?_⟩, ?_, ⟨?_, ?_⟩, ⟨?_, ?_⟩, ?_⟩, ⟨?_, ?_⟩, mates_of (q := (· != .stopped)) (fun x h => by simpa using h) ?_,
      ?_, ?_, ?_, ?_, ?_, ?_⟩, ⟨?_, ?_⟩, ⟨?_, ?_⟩, ?_, rfl, rfl, ?_, ?_, rfl, ?_⟩
  all_goals first | decide +kernel | (revert c x; decide +kernel)

/-! Further witnesses: the exceptions of the vector words. -/

theorem unpopped_of {i : Instr} {mx : Bool} {s : State} (h : entersB i mx s = true) : popSlots s.me.v (entryFor s i) = [] := by
  simp only [entersB, Bool.and_eq_true, beq_iff_eq] at h
  exact h.1.2

/-- The words of two sources on an E2M1 register, and on registers that suit them with 1,100 elements. -/
theorem test_meets_two_source_faults : let long := withVl cpt 1100
    (∀ p ∈ twoSourceWords 0 3 8 10 (.v 2), Enters p.1 false cpt (queued cpt p.1) ∧ popSlots cpt.me.v (entryFor cpt p.1) = [] ∧
      (reg (queued cpt p.1) 10).tag ∉ p.2.1) ∧
    (∀ p ∈ twoSourceWords 0 3 1 1 (.v 2) ++ twoSourceWords 0 3 3 3 (.v 4), let a : VReg := if p.2.1 = intTags then 1 else 3; let u := queued long p.1
      Enters p.1 false long u ∧ (reg u a).tag ∈ p.2.1 ∧ ¬ fits u (reg u a).tag.width) := by
  intro long
  have h : ∀ p ∈ twoSourceWords 0 3 8 10 (.v 2), entersB p.1 false cpt = true := by decide +kernel
  have k : ∀ p ∈ twoSourceWords 0 3 1 1 (.v 2) ++ twoSourceWords 0 3 3 3 (.v 4), entersB p.1 false long = true := by decide +kernel
  refine ⟨fun p hp => ⟨enters_of (h p hp), unpopped_of (h p hp), ?_⟩, fun p hp => ⟨enters_of (k p hp), ?_, ?_⟩⟩
  · revert p; decide +kernel
  · revert p; decide +kernel
  · simp only [fits]; revert p; decide +kernel

theorem test_meets_other_word_faults : let long := withVl cpt 1100
    (∀ i ∈ ((unaryRules.take 5).map fun p => p.1 0 8 10) ++ (floatUnaryRules.map fun p => p.1 0 9 10), let u := queued cpt i
      Enters i false cpt u ∧ (reg u 10).tag = .e2m1) ∧
    (∀ i ∈ (unaryRules.take 5).map fun p => p.1 0 8 1, let u := queued long i
      Enters i false long u ∧ (reg u 1).tag = .i32 ∧ ¬ fits u 32) ∧
    (∀ i ∈ floatUnaryRules.map fun p => p.1 0 9 3, let u := queued long i
      Enters i false long u ∧ (reg u 3).tag = .f32 ∧ ¬ fits u 32) ∧
    (∀ i ∈ [Instr.vldx 0 8 1 5 .i32, .vldb 0 8 1 5 .i32, .vstx 0 1 1 5, .vredm 0 1 1 5 .add], let u := queued bounded i
      Enters i false bounded u ∧ (reg u 5).tag ∉ offsetTags) ∧
    (∀ i ∈ [Instr.vldx 0 8 1 14 .i8, .vldb 0 8 1 14 .i8, .vstx 0 5 1 14, .vredm 0 5 1 14 .add], let s := withVl bounded 100; let u := queued s i
      Enters i false s u ∧ (reg u 14).tag ∈ offsetTags ∧ ¬ fits u 32 ∧ (reg u 5).tag = .i8 ∧ fits u 8) ∧
    (let u := queued cpt (.mrow 0 1 8); Enters (.mrow 0 1 8) true cpt u ∧ pairAccepted (reg u 1).tag ((u.core u.myCore).tile 0).tag = false) ∧
    (let s := withVl cpt 3; let u := queued s (.mrow 0 7 8)
     Enters (.mrow 0 7 8) true s u ∧ pairAccepted (reg u 7).tag ((u.core u.myCore).tile 0).tag = true ∧
     u.me.v.vl % ((u.core u.myCore).tile 0).pitch ≠ 0) := by
  intro long
  refine ⟨fun i hi => ⟨enters_of ?_, ?_⟩, fun i hi => ⟨enters_of ?_, ?_, ?_⟩, fun i hi => ⟨enters_of ?_, ?_, ?_⟩, fun i hi => ⟨enters_of ?_, ?_⟩,
    fun i hi => ⟨enters_of ?_, ?_, ?_, ?_, ?_⟩, ⟨enters_of ?_, ?_⟩, enters_of ?_, ?_, ?_⟩
  all_goals (try simp only [fits])
  all_goals first | decide +kernel | (revert i; decide +kernel)

/-- Slot q1 binds a register to a pattern of four positions, of which two are left where it is a source. -/
def boundTo (slot pos : Nat) : State :=
  let x : StreamSlot := { bound := true, slot := slot, tag := .i32, base := 0x10000, strides := [4, 0, 0], extents := [4, 1, 1], pos := pos }
  { cpt with me := { cpt.me with v := cpt.me.v.setStream 1 x } }

theorem test_meets_binding_faults :
    ∀ c ∈ [(8, 0, (boundTo 8 0)), (1, 2, boundTo 1 2), (2, 2, boundTo 2 2)], let s := c.2.2
      (∀ i ∈ [Instr.vadd 0 8 1 (.v 2), .vfadd 0 8 1 (.v 2)], Calm s ∧ decodeTrap s i false = none) ∧ s.me.v.vstart = 0 ∧
      (∀ g ∈ s.me.v.groups, ∀ x, (s.core s.myCore).groups[g]? = some x → x.asleep = false) ∧
      (let x := s.me.v.stream 1
       x.bound = true ∧ (∀ k, k < 4 → k ≠ 1 → (s.me.v.stream k).bound = false) ∧ x.slot = c.1 ∧ place s 8 = 8 ∧ place s 1 = 1 ∧ place s 2 = 2 ∧
       (c.1 = 8 ∨ x.total < x.pos + s.me.v.vl)) := by
  intro c hc
  refine ⟨fun i hi => ⟨calm_of ?_, ?_⟩, ?_, awake_of ?_, ?_⟩
  · revert c; decide +kernel
  · revert c i; decide +kernel
  · revert c; decide +kernel
  · revert c; decide +kernel
  · revert c; decide +kernel

/-- A division of 0 by 0 with the trap of its flag enabled. -/
theorem test_meets_fp_trap : let s := { cpt with me := { cpt.me with fcsr := 0x1F00 } }; let i := Instr.vfdiv 0 9 3 (.v 4); let u := queued s i
    Enters i false s u ∧ (reg u 3).tag ∈ floatTags ∧ secondTagged u (.v 4) (reg u 3).tag ∧ fits u (reg u 3).tag.width ∧ u.me.fd = false ∧
    governs u 0 2 = true ∧ ∃ j, j = 7 ∧ (fdivElem (reg u 3).tag (rmOf u.me.fcsr) ((reg u 3).elem 32 2) (second s u (.v 4) (reg u 3).tag 2)).2.testBit j = true ∧
      u.me.fcsr.getLsbD (j + 5) = true := by
  refine ⟨enters_of ?_, ?_, tagged_v ?_, ?_, rfl, ?_, 7, rfl, ?_, ?_⟩
  all_goals (try simp only [fits])
  all_goals decide +kernel

/-! Further witnesses: copies, courses, the platform, the dispatch units. -/

/-- The record of that copy at 0x10000 in generic memory, or in scratchpad. -/
def copyingGen : State :=
  withVl (withBytes cpt 0x1000000 128 (1 + 7 * 2 ^ 40 + 0x8000000000001000 * 2 ^ 64 + 0x8000000000002000 * 2 ^ 128
    + 16 * 2 ^ 192 + 2 ^ 224 + 2 ^ 256 + 2 ^ 288 + 2 ^ 320)) 1

theorem test_meets_tcopy_record :
    (∀ c ∈ [(copyingGen, (1 : SReg), at1.loc), (copying, 5, at5.loc)], let s := c.1
      let r := Shape.ofBytes (recordSeen s c.2.2)
      (check (touch s s.agent (s.rd c.2.1)) s.agent .vload (s.rd c.2.1) 128 1).map Place.loc = .ok c.2.2 ∧ (s.rd c.2.1).toNat % 65536 + 128 ≤ 65536 ∧
      r.check s (s.rd c.2.1) 0 = none ∧ (Map.getD (s.core s.myCore).chans r.chan {}).held < 1024 ∧ (s.rd 0).toNat < r.nrows ∧ r.rop = 0 ∧
      r.ctag = 0 ∧ r.mcast = 0 ∧ r.e 0 * r.ssize = 16 ∧ r.srcRow 0 = 0x8000000000001000 ∧ r.dstRow 0 = 0x8000000000002000 ∧
      (s.core s.myCore).chunks = [] ∧ s.me.v.vl = 1) ∧
    Calm copyingGen ∧ Free copyingGen [1, 0, 0] ∧ (copyingGen.rd 1).getLsbD 63 = false ∧
    (∀ g ∈ copyingGen.me.v.groups, ∀ x, (copyingGen.core copyingGen.myCore).groups[g]? = some x → x.asleep = false) := by
  refine ⟨fun c hc => ?_, calm_of ?_, free_of rfl _, ?_, awake_of ?_⟩
  · revert c; decide +kernel
  all_goals decide +kernel

theorem whole_lines {s : State} (h : ((s.cores.all fun c => c.2.l1.isEmpty) && s.dies.all fun d => d.2.gate.isEmpty) = true) : WholeLines s := by
  simp only [Bool.and_eq_true, List.all_eq_true, List.isEmpty_iff] at h
  refine ⟨fun c k x hx => ?_, fun d k x hx => ?_⟩
  · simp only [State.core, Map.getD] at hx
    cases hc : Map.get? s.cores c with
    | none => rw [hc] at hx; cases hx
    | some y => rw [hc, Option.getD_some, h.1 _ (mem_of_get hc)] at hx; cases hx
  · simp only [State.die, Map.getD] at hx
    cases hc : Map.get? s.dies d with
    | none => rw [hc] at hx; cases hx
    | some y => rw [hc, Option.getD_some, h.2 _ (mem_of_get hc)] at hx; cases hx

theorem test_meets_whole_lines : WholeLines copyingGen ∧ WholeLines copying := ⟨whole_lines rfl, whole_lines rfl⟩

/-- The record in page 1 names three F32 elements at 0x10200, copied to page 5 as they are or as BF16; the barrier at 0x40 of the gang's
page 0 waits for two arrivals. -/
def copyingRow (conv : Bool) (bar : Nat) : State :=
  let tags := if conv then 7 * 2 ^ 16 + 9 * 2 ^ 24 else 0
  let s := withBytes cpt 0x1000000 128 (1 + 2 * 2 ^ 8 + tags + 7 * 2 ^ 40 + 0x10200 * 2 ^ 64 + 0x50400 * 2 ^ 128 + 3 * 2 ^ 192
    + 2 ^ 224 + 2 ^ 256 + 2 ^ 288 + 2 ^ 320)
  withRegs (withSpad (withVl s 1) [(68, 100), (70, 2)]) [(9, BitVec.ofNat 64 bar)]

theorem test_meets_tcopy_generic : ∀ c ∈ [(false, 0), (false, 0x8000000000000040), (true, 0), (true, 0x8000000000000040)], let s := copyingRow c.1 c.2
    let r := Shape.ofBytes (recordSeen s at1.loc)
    CopiesRow s 1 0 9 r at1 ∧ r.rop = 0 ∧ r.mcast = 0 ∧ (s.core s.myCore).l1 = [] ∧ s.lostLines = [] ∧ (r.ctag = 0 ↔ c.1 = false) ∧
    r.srcRow 0 = 0x10200 ∧ r.dstRow 0 = 0x50400 ∧ (∀ x ∈ [0x10000, 0x10200, 0x50400], (tlbLookup s s.agent x).isSome) ∧
    0x10200 % 65536 + r.e 0 * r.ssize ≤ 65536 ∧ 0x50400 % 65536 + r.e 0 * r.dsize ≤ 65536 ∧
    check s s.agent .copySrc 0x10200 1 1 = .ok { at1 with loc := at1.loc.plus 0x200 } ∧
    check s s.agent .copyDst 0x50400 1 1 = .ok { loc := .gen 0x1040400 .normal 1, leaf := 0x1040033 } ∧
    isRemote 0x1000200 = false ∧ isRemote 0x1040400 = false ∧ 0x1000200 + r.e 0 * r.ssize ≤ 0x1040400 ∧
    (s.rd 9 ≠ 0 → (s.rd 9).toNat % 16 = 0 ∧ SpadRange s (s.rd 9) 16 ∧
      (let x := barrierIn s (spadAt s (s.rd 9)); x.broken = false ∧ x.due ≠ 0 ∧ -2 ^ 31 ≤ x.bal - (r.e 0 * r.dsize : Nat))) := by
  have h : ∀ c ∈ [(false, 0), (false, 0x8000000000000040), (true, 0), (true, 0x8000000000000040)], let s := copyingRow c.1 c.2
    let r := Shape.ofBytes (recordSeen s at1.loc)
    calmB s = true ∧ awakeB s = true ∧ aheadAtUnit s 1 = [] ∧ (s.rd 1).toNat % 65536 + 128 ≤ 65536 ∧ (s.rd 1).getLsbD 63 = false ∧
      check (touch s s.agent (s.rd 1)) s.agent .vload (s.rd 1) 128 1 = .ok at1 ∧ r.check s (s.rd 1) (s.rd 9) = none ∧
      (Map.getD (s.core s.myCore).chans r.chan {}).held < 1024 ∧ (s.rd 0).toNat < r.nrows ∧ (s.core s.myCore).chunks = [] := by decide +kernel
  intro c hc s r
  obtain ⟨h1, h2, h3, h4, h5, h6, h7, h8, h9, h10⟩ := h c hc
  refine ⟨⟨⟨calm_of h1, rfl, free_of rfl _, rfl⟩, ⟨rfl, rfl, rfl⟩, awake_of h2, ⟨h3, h10, whole_lines ?_⟩,
    ⟨h4, fun k => absurd (h5.symm.trans k) (by decide), h6⟩, ⟨rfl, h7⟩, h8, h9⟩, ?_⟩
  · clear h1 h2 h3 h4 h5 h6 h7 h8 h9 h10
    revert c; decide +kernel
  simp only [SpadRange]
  clear h1 h2 h3 h4 h5 h6 h7 h8 h9 h10
  refine ⟨?_, ?_, ?_, rfl, ?_, ?_, ?_, ?_, ?_, ?_, ?_, ?_, ?_, ?_, ?_, fun hb => ⟨?_, ⟨?_, ?_, ?_, _, rfl, ?_, ?_, ?_⟩, ?_⟩⟩
  all_goals revert c; decide +kernel

/-- The item that HLOADR asks for lies in a lost line, or no item does. -/
theorem test_meets_lost_item : (let s := withRegs { bound with lostLines := [0x1040000 / 128] } [(2, 0)]
      let i := Instr.hloadr 8 1 8; let p := queued s i; let u := (bindStream p (s.rd 1 &&& ~~~(127 : Word))).1
      EntersCourse i (s.rd 1 &&& ~~~(127 : Word)) s p u 0x20000 rested ∧ rested.recBits ≤ u.me.v.lg * 2048 ∧
      lostItem u rested [(s.rd 8).toNat] ((s.rd 1).toNat % 128) = some { cause := .dataLost, addr := 0x50004 }) ∧
    (let s := withRegs bound [(2, 0)]; let u := (bindStream (queued s (.hloadr 8 1 8)) (s.rd 1 &&& ~~~(127 : Word))).1
      lostItem u rested [(s.rd 8).toNat] ((s.rd 1).toNat % 128) = none) ∧
    (let s := withRegs bound [(2, 0)]; let u := (bindStream (queued s (.hloade 1 1 14)) (s.rd 1 &&& ~~~(127 : Word))).1
      lostItem u rested ((List.range u.me.v.vl).map fun i => (s.rd (1 + 1) + BitVec.ofNat 64 ((reg u 14).elem 32 i)).toNat)
        ((s.rd 1).toNat % 128) = none) := by
  refine ⟨⟨course_of ?_ ?_ ?_ ?_ ?_ rfl ⟨rfl, rfl, rfl, ?_⟩, ?_, ?_⟩, ?_, ?_⟩ <;> decide +kernel

/-- A held group whose retirement is due, a way that has counted sixteen, a link that is up at READY only, no head, no lost line. -/
theorem test_meets_errors_retired :
    (let x : LaneGroup := { owner := some 0, retireDue := true }
     let s := cpt.modCore 0 fun c => { c with groups := x :: List.replicate 15 {} }
     (s.core 0).groups[0]? = some x ∧ x.retireDue = true ∧ 0 ∈ [0]) ∧
    16 ≤ ((Map.get? ({ cpt with l2Errors := [(3 * 65536 + 7, List.replicate 16 0)] } : State).l2Errors (3 * 65536 + 7)).getD []).length ∧
    flv.stage ≠ .off ∧ State.reset.stage ≠ .ready ∧ State.reset.stage ≠ .dies ∧ ({ filledQueue with stage := .dies } : State).stage = .dies ∧
    (filledQueue.part 0).serving = none := by decide +kernel

/-- A launch that is over: without a counter, with one, with one on a page without a translation while the record queue is full. -/
def finished (ccnt : Word) (pt : Part) : State :=
  { withPart cpt pt with launches := cpt.launches.map fun p => (p.1, { p.2 with ended := 1, task := { p.2.task with ccnt := ccnt, flags := 2, msixv := 9 } }) }

theorem test_meets_completion_counters :
    (∀ c ∈ [((0 : Word), ({} : Part)), (0x10000, {}), (0x60000, { frqsize := 16, frqtail := 16 })], let s := finished c.1 c.2
      (∃ l, Map.get? s.launches 1 = some l ∧ l.placed = l.task.ngang ∧ l.ended = l.placed ∧ l.task.ccnt = c.1 ∧ l.part = 0) ∧
      (s.part 0).held = []) ∧
    (let s := finished 0x10000 {}
     let u := (s.strands.filterMap fun p => if !p.2.fliven && p.2.id.launch == 1 then some p.1 else none).foldl drainStrand s
     check (touch u (hwAgent 0 0) 0x10000) (hwAgent 0 0) .hwWrite 0x10000 8 8 = .ok at1 ∧ (s.part 0).queues = []) ∧
    (let s := finished 0x60000 { frqsize := 16, frqtail := 16 }
     let u := (s.strands.filterMap fun p => if !p.2.fliven && p.2.id.launch == 1 then some p.1 else none).foldl drainStrand s
     check (touch u (hwAgent 0 0) 0x60000) (hwAgent 0 0) .hwWrite 0x60000 8 8 = .error { cause := .notPresent, addr := 0x60000 } ∧
     (s.part 0).frqsize ≤ ((s.part 0).frqtail + 2 ^ 32 - (s.part 0).frqhead) % 2 ^ 32) := by
  refine ⟨?_, ?_, ?_⟩
  · simp only [List.forall_mem_cons, List.not_mem_nil, false_implies, implies_true, and_true]
    exact ⟨⟨⟨_, rfl, rfl, rfl, rfl, rfl⟩, rfl⟩, ⟨⟨_, rfl, rfl, rfl, rfl, rfl⟩, rfl⟩, ⟨_, rfl, rfl, rfl, rfl, rfl⟩, rfl⟩
  · decide +kernel
  · decide +kernel

/-- A course whose newest page has room, and a coarser one with room too. -/
theorem test_meets_placeable :
    placeable (withStream rested) rested 0 = true ∧
    (let x : Stream := { rested with courses := [{ items := [1, 2, 3, 4, 5, 6, 7] }, { pages := [{ va := 0x50000, pa := 0x1040000, written := 0, gone := 0 }] }] }
     placeable (withStream x) x (0 + 1) = true) := by decide +kernel

/-- A lost chunk while the record queue is full; a reduction message behind an earlier one of its core. -/
theorem test_meets_lost_chunk_and_order :
    (let s := withPart (cpt.modCore 0 fun x => { x with chunks := [landing] }) { frqsize := 16, frqtail := 16 }
     (s.core 0).chunks[0]? = some landing ∧ landing.lost = false ∧ landing.data = [] ∧ landing.bar = none ∧ NoneEnded s ∧
     (s.gang? landing.gang).map Gang.part = some 0 ∧ (s.part 0).frqsize ≤ ((s.part 0).frqtail + 2 ^ 32 - (s.part 0).frqhead) % 2 ^ 32) ∧
    (let m : RedMsg := { strand := 32, gang := 1, off := 8, size := 4, tag := .i32, op := .add, value := 5 }
     let s := cpt.modCore 0 fun x => { x with redMsgs := [m, m] }
     (s.core 0).redMsgs[1]? = some m ∧ NoneEnded s ∧ (∃ r ∈ (s.core 0).redMsgs.take 1, r.src = m.src) ∧
     ∀ r ∈ (s.core 0).redMsgs.take 0, r.src ≠ m.src) := by
  simp only [NoneEnded]
  decide +kernel

/-! Further witnesses: waits, exceptions and limits beside the usual course. -/

/-- VSPLAT, VINS and VMOVS on an E2M1 register. -/
theorem test_meets_e2m1_moves : ∀ i ∈ [Instr.vsplat 0 10 7, .vins 0 10 7, .vmovs 0 9 10],
    (reg (queued cpt i) 10).tag = .e2m1 ∧ Enters i false cpt (queued cpt i) ∧ popSlots cpt.me.v (entryFor cpt i) = [] := by
  have h : ∀ i ∈ [Instr.vsplat 0 10 7, .vins 0 10 7, .vmovs 0 9 10], entersB i false cpt = true := by decide +kernel
  refine fun i hi => ⟨?_, enters_of (h i hi), unpopped_of (h i hi)⟩
  revert i; decide +kernel

/-- Relaxed ordered accesses and AMOs of a NORMAL page that are left pending; a waiting APPMARK and waiting AMOs that are performed next. -/
theorem test_meets_ordered_waiting :
    (let s := late cpt
     Free s [7, 8] ∧ NoLoads s ∧ ∀ n ∈ [4, 8], check (touch s s.agent (s.rd 1)) s.agent .load (s.rd 1) n n = .ok at1 ∧
       check (touch s s.agent (s.rd 1)) s.agent .store (s.rd 1) n n = .ok at1) ∧
    (let z : PendAccess := { loc := at2.loc, data := [], rt := .uc, load := some ⟨9, 8, false⟩, mark := some 0x101 }
     let u : State := { withApp cpt { tail := 8 } with agenda := [.perform 0 0], me := { cpt.me with ord := { path := [z] } } }
     u.agenda = .perform u.key 0 :: [] ∧ Unasked u ∧ u.me.ord.path[0]? = some z ∧ (∀ y ∈ u.me.ord.path.take 0, ¬ ComesAfter z y)) ∧
    ∀ p ∈ amoForms, let z : PendAccess := { loc := at1.loc, data := [], rt := .own, load := some ⟨9, 8, false⟩, amo := some (p.2, 5, 6) }
      let u : State := { cpt with agenda := [.perform 0 0], me := { cpt.me with ord := { path := [z] } } }
      u.agenda = .perform u.key 0 :: [] ∧ Unasked u ∧ u.me.ord.path[0]? = some z ∧ z.mark = none := by
  have none_before : ∀ (z : PendAccess) (x : PendAccess), x ∈ [z].take 0 → ¬ ComesAfter z x := fun _ _ hx => (List.not_mem_nil hx).elim
  refine ⟨⟨free_of rfl _, (fun _ hp => nomatch hp), ?_⟩, ⟨rfl, ?_, rfl, none_before _⟩, fun p _ => ⟨rfl, ?_, rfl, rfl⟩⟩
  · decide +kernel
  all_goals simp only [Unasked]; decide +kernel

/-- GRET to an odd address and beyond the generic space. -/
theorem test_meets_gret_faults : ∀ x ∈ [(2 : Word), 0x1000000000000],
    let s := { atLevel cpt .l with me := { cpt.me with level := .l, glevel := .l, glink := x } }
    s.me.fliven = false ∧ Idle s ∧ s.me.level ≠ .k ∧ s.me.level.num ≤ s.me.glevel.num ∧
      (2 ^ 48 ≤ s.me.glink.toNat ∨ s.me.glink.toNat % 4 ≠ 0) := by
  intro x hx
  have hx : 2 ^ 48 ≤ x.toNat ∨ x.toNat % 4 ≠ 0 := by
    obtain rfl | hx := List.mem_cons.mp hx
    · exact .inr (by decide +kernel)
    · exact .inl (by rw [List.mem_singleton.mp hx]; decide +kernel)
  exact ⟨rfl, idle_of rfl, (by decide : Level.l ≠ .k), Nat.le_refl (Level.l).num, hx⟩

/-- An allotment of 32 slots above which nothing is held: VALLOC to 160 and VSHRINK to 16. -/
theorem test_meets_none_above : let s := { cpt with me := { cpt.me with v := { cpt.me.v with valc := 32 } } }
    NoneAbove s ∧ s.me.fliven = false ∧ s.me.v.valc ≤ 16 * (10 : BitVec 6).toNat ∧ 16 * (1 : BitVec 6).toNat ≤ s.me.v.valc ∧ s.me.queue = [] := by
  refine ⟨fun k (hk : 32 ≤ k) => ?_, rfl, ?_, ?_, rfl⟩
  · have : Map.get? slots0 k = none := by
      cases h : Map.get? slots0 k with
      | none => rfl
      | some x =>
        have : ∀ p ∈ slots0, p.1 < 32 := by decide +kernel
        exact absurd (this _ (mem_of_get h)) (by omega)
    show Map.getD slots0 k {} = {}
    rw [Map.getD, this, Option.getD_none]
  all_goals decide +kernel

/-- A SEAL that waits, one whose page has been sealed, one whose page FREE has taken; a page that the last fill will seal. -/
theorem test_meets_seal_outcomes :
    (∀ o ∈ [none, some true, some false], let s := { cpt with me := { cpt.me with wait := { frame := some 0x101, sealed := o } } }
      Free s [2] ∧ Idle s ∧ s.me.wait.frame = some 0x101 ∧ s.me.wait.sealed = o) ∧
    (let r : Reservation := { off := 0, data := [1], strand := 0, seq := 0 }
     let p : AppPage := { state := .sealing, pending := [r] }
     let s := withApp { cpt with me := { cpt.me with wait := { frame := some 0x101 } } } p
     s.me.wait.frame = some 0x101 ∧ s.me.wait.sealed = none ∧ Map.get? s.apps 0x101 = some p ∧ p.engineHeld = false ∧ p.pending = [r]) ∧
    (let s := late (withApp cpt { tail := 8 })
     s.later = true ∧ check (touch s s.agent (s.rd 2)) s.agent (.appendOp false) (s.rd 2) 1 1 = .ok at2 ∧ ∀ y ∈ s.me.ord.path, y.mark ≠ some 0x101) := by
  refine ⟨fun o _ => ⟨free_of rfl _, idle_of rfl, rfl, rfl⟩, ⟨rfl, rfl, rfl, rfl, rfl⟩, rfl, ?_, fun _ hy => nomatch hy⟩
  decide +kernel

/-- ABINIT of 0 and of 65,536 arrivals, ABEXPECT of 2^31. -/
theorem test_meets_barrier_limits : cpt.me.queue = [] ∧ ((withRegs cpt [(8, 0)]).rd 8).toNat = 0 ∧ 65535 < ((withRegs cpt [(8, 65536)]).rd 8).toNat ∧
    2 ^ 31 ≤ ((withRegs cpt [(8, 0x80000000)]).rd 8).toNat ∧ barrierTrap cpt cpt.agent (cpt.rd 5) = .ok (0, 0) := by
  refine ⟨rfl, ?_⟩; decide +kernel

/-- No waiting APPMARK, no stream that gives its pages back, no strand that waits for a page; room in the L1; nothing on the way to tiles. -/
theorem test_meets_quiet :
    (∀ y ∈ cpt.me.ord.path, y.mark = none) ∧ (∀ y ∈ freeingStream.streams, y.2.releasing = []) ∧ (∀ y ∈ bound.others, y.2.wait.frame = none) ∧
    (∀ i ∈ [Instr.vld 0 8 1 0 .i32 false, .vldx 0 8 1 14 .i32], RoomInL1 (queued cpt i) 4) ∧ RoomInL1 (queued bounded (.vldb 0 8 1 14 .i32)) 2 ∧
    RoomInL1 (queued (withRegs cpt [(2, 0x10080)]) (.vld 0 8 1 2 .e2m1 false)) 5 ∧
    (∀ x ∈ (queued cpt (.tldm 0 5 8)).cores, x.2.tileWrites = []) ∧
    (∀ s ∈ [copying, copyingGen], aheadAtUnit s 1 = [] ∧ RoomInL1 s 2) ∧ aheadAtUnit (queued cpt (.tcopy 9 5 6)) 1 = [] := by
  simp only [RoomInL1]; decide +kernel

/-- A partition count set, and an uncorrectable error, with nothing on the way; a shoot-down that frees no page of a stream; a fill into a lost
line. -/
theorem test_meets_quiet_platform :
    (∀ s ∈ [flv, cpt], (∀ p ∈ s.strands, p.2.ord.path = []) ∧
      (∀ c ∈ s.cores, c.2.chunks = [] ∧ c.2.tileWrites = [] ∧ c.2.redMsgs = [] ∧ c.2.stores = []) ∧ ∀ p ∈ s.apps, p.2.pending = []) ∧
    (∀ p ∈ ({ bound with streams := [(0x20000, rested)] } : State).streams, p.2.pa / 65536 ∉ [0x102]) ∧
    (∀ lost ∈ [[], [0x101 * 512]], let r : Reservation := { off := 8, data := [1], strand := 0, seq := 0 }
      let s := { withApp cpt { tail := 16, pending := [r] } with lostLines := lost }
      (s.app 0x101).pending[0]? = some r ∧ s.lost (0x101 * 65536 + 8) 1 = decide (lost ≠ [])) := by decide +kernel

/-- Resumed strands wait on nothing, and the saved TRAPH of a block of zeros is zero. -/
theorem test_meets_resume_quiet : ∀ c ∈ [0, 0x3000000], let s := beside stopped4 { gang4 with ctx := c }
    s.me.wait.on_ = none ∧ (if c = 0 then stopped4.traph else savedWord s { gang4 with ctx := c } stopped4.id.sidx 608 &&& 0xFFFFFFFFFFFC) = 0 := by
  decide +kernel

/-- A strand that has its turn: it decodes the word at its PC, from memory or from the line of its instruction cache, or waits at one. -/
theorem test_meets_turn :
    (∀ w ∈ [none, some (Instr.waituntil 7)], let s := { cpt with me := { cpt.me with wait := { on_ := w } } }
      s.stage = .ready ∧ s.me.status = .ready ∧ s.me.sleepsInLanes = false ∧ owedReady s = [] ∧ s.agenda = [] ∧ s.me.wait.on_ = w ∧
      s.me.wait.fault = none ∧
      check (touch s s.agent s.me.pc) s.agent .fetch s.me.pc 4 4 = .ok at1) ∧
    (let s := withBytes cpt 0x1000000 4 0xF8000000
     let u := s.modCore 0 fun x => { x with icache := [(0x20000, { aLine false with data := bytesOfNat 128 0xF8000006 })] }
     Claim.codeNumber s at1.loc = 0xF8000000 ∧ Claim.codeNumber u at1.loc = 0xF8000006) := by decide +kernel

/-- A strand that keeps the fault of a TRAP and has nothing else left. -/
theorem test_meets_kept_fault : let f : KeptFault := { word := 0xF8000103, trap := { cause := .trap, info := 4 } }
    let s := { cpt with me := { cpt.me with wait := { fault := some f } } }
    s.me.wait.fault = some f ∧ f.chan = none ∧ Idle s ∧ s.stage = .ready ∧ s.me.status = .ready ∧ s.me.sleepsInLanes = false ∧ owedReady s = [] ∧
    s.agenda = [] := by
  refine ⟨rfl, rfl, idle_of rfl, rfl, rfl, ?_, ?_, rfl⟩ <;> decide +kernel

/-- A Fliven strand that sleeps in WAITUNTIL when a record is written to the queue of its partition. -/
theorem test_meets_woken : let x := { flv.me with status := .ready, pc := 0x40, wait := { since := some 0, on_ := some (.waituntil 7) } }
    (Claim.wokenBy 0 x).pc = 0x44 ∧ (Claim.wokenBy 1 x).pc = 0x40 ∧ Claim.wokenBy 0 cpt.me = cpt.me := by decide +kernel

/-! Further witnesses: lost table lines and descriptors, odd sidecars, sleeping groups. -/

/-- No element is governed, and the sidecar base is odd. -/
theorem test_meets_odd_sidecar : let s := withRegs (withVl cpt 0) [(2, 0x10081)]
    let u := queued s (.vld 0 8 1 2 .e2m1 false)
    let v := queued s (.vst 0 10 1 2 false)
    Enters (.vld 0 8 1 2 .e2m1 false) false s u ∧ Enters (.vst 0 10 1 2 false) false s v ∧ governedOf u 0 = [] ∧ governedOf v 0 = [] ∧
    (s.rd 2).toNat % 2 = 1 ∧ u.me.ord.path = [] ∧ fits u 4 ∧ fits v 4 ∧ (reg v 10).tag = .e2m1 ∧ (0x10080 : Word).toNat % 2 = 0 := by
  refine ⟨enters_of ?_, enters_of ?_, ?_, ?_, ?_, rfl, ?_, ?_, ?_, ?_⟩
  all_goals (try simp only [fits])
  all_goals decide +kernel

/-- ENQ to an open queue whose descriptor lies in a lost line, and to one whose descriptor does not; SHOOT whose walk meets a lost line. -/
theorem test_meets_lost_tables :
    (∀ lost ∈ [true, false], let s := { ringed cpt with lostLines := if lost then [descAddr (ringed cpt) 0 4 / 128] else [0] }
     s.me.wait.record = none ∧ (s.part s.me.part).qopen.getLsbD 4 = true ∧ s.lost (descAddr s s.me.part 4) 64 = lost) ∧
    (∀ lost ∈ [true, false], let s := { withRegs (mapped flv) [(1, 0x10000), (2, 1)] with lostLines := if lost then [0x2008 / 128] else [] }
     s.me.level.num ≤ 2 ∧ s.me.queue = [] ∧ s.me.wait.mark = none ∧ s.shoots = [] ∧ s.rd 2 = 1 ∧ shootLost s (s.rd 1).toNat = lost) ∧
    shootLost (withRegs flv [(1, 0x60000), (2, 1)]) 0x60000 = false := by decide +kernel

/-- A core whose second of two batches is due at 40 ns, and one whose batch is not. -/
theorem test_meets_waking :
    (let s := { cpt.modCore 0 fun c => { c with waking := some 20 } with now := 40 }
     (s.core 0).waking = some 20 ∧ 20 + 20 ≤ s.now ∧ (s.core 0).groups[0]? = some { owner := some 0 }) ∧
    (let s := { cpt.modCore 0 fun c => { c with waking := some 20 } with now := 39 }
     ∀ w, (s.core 0).waking = some w → s.now < w + 20) ∧ (cpt.core 0).waking = none := by
  refine ⟨by decide +kernel, ?_, by decide +kernel⟩
  intro s w h
  have : (s.core 0).waking = some 20 := by decide +kernel
  cases this.symm.trans h
  decide

/-- A head that is eligible already and is evaluated again, its task not started. -/
theorem test_meets_evaluated_again : ∀ r ∈ [none, some 5], let s := withHead flv {} r
    (s.queueInfo 0 4).head = some {} ∧ headServed s 0 4 = false ∧ (s.queueInfo 0 4).release = r := by decide +kernel

/-- Two lost chunks of one multicast row. -/
theorem test_meets_lost_multicast : let k : Chunk := { landing with lost := true, order := 7 }
    let s := cpt.modCore 0 fun x => { x with chunks := [k, k] }
    (s.core 0).chunks[0]? = some k ∧ k.data = [] ∧ k.lost = true := by decide +kernel

/-! Single steps, with results from the manual's examples and tables or by hand from its rules. -/

/-- 13 R243: of three stores with a FENCE.rel behind the first, the third is not performed before the first, and the first is. -/
theorem test_fence_rel_holds_later_stores :
    let x : PendAccess := { loc := at1.loc, data := [1], rt := .own }
    let l := [{ x with fences := 1 }, { x with loc := at1.loc.plus 8, rel := some .device }, { x with loc := at1.loc.plus 16 }]
    let s : State := { cpt with me := { cpt.me with ord := { path := l } } }
    (performNth 2 s).me.ord.path.length = 3 ∧ (performNth 0 s).me.ord.path.length = 2 := by decide +kernel

/-- The next state of an instruction, or the state it meets where it stops. -/
def ran (i : Instr) (s : State) : State :=
  match exec i s with
  | .next t => t
  | .fault _ => s
  | .refused _ => s

/-- 23 R329: of eight sleeping held groups four are awake 20 ns after the wake began, the others 20 ns later. -/
theorem test_wake_batches : let s := { cpt.modCore 0 fun c => { c with groups := List.replicate 8 { owner := some 0, asleep := true }, waking := some 0 } with now := 20 }
    let asleep := fun t : State => ((t.core 0).groups.filter (·.asleep)).length
    let t := ran (.laneGroupWakeBatch 0) s
    let u := ran (.laneGroupWakeBatch 0) { t with now := 40 }
    asleep t = 4 ∧ asleep (ran (.laneGroupWakeBatch 0) t) = 4 ∧ asleep u = 0 ∧ (u.core 0).waking = none := by decide +kernel

/-- 11 R186, the example: `lui s2, #0x12345` writes 0x12345000, and 0x80000 the negative number. -/
theorem test_lui : (ran (.lui 2 0x12345) cpt).rd 2 = 0x12345000 ∧ (ran (.lui 2 0x80000) cpt).rd 2 = 0xFFFFFFFF80000000 := by decide +kernel

/-- 11 R182: division by 0 gives all ones and the dividend, −2^63 by −1 gives −2^63 and 0; the remainder has the dividend's sign. -/
theorem test_division_corners :
    (let s := withRegs cpt [(1, 0x8000000000000000), (2, 0xFFFFFFFFFFFFFFFF)]
     (ran (.div 9 1 0) s).rd 9 = 0xFFFFFFFFFFFFFFFF ∧ (ran (.rem 9 1 0) s).rd 9 = 0x8000000000000000 ∧
     (ran (.div 9 1 2) s).rd 9 = 0x8000000000000000 ∧ (ran (.rem 9 1 2) s).rd 9 = 0) ∧
    (let s := withRegs cpt [(1, 0xFFFFFFFFFFFFFFF9), (2, 2)]
     (ran (.div 9 1 2) s).rd 9 = 0xFFFFFFFFFFFFFFFD ∧ (ran (.rem 9 1 2) s).rd 9 = 0xFFFFFFFFFFFFFFFF) := by decide +kernel

/-- 11 R182: MULH is signed, MULHN unsigned, s0 discards. -/
theorem test_high_products : let s := withRegs cpt [(1, 0xFFFFFFFFFFFFFFFF)]
    (ran (.mulh 9 1 1) s).rd 9 = 0 ∧ (ran (.mulhn 9 1 1) s).rd 9 = 0xFFFFFFFFFFFFFFFE ∧ (ran (.mulhn 0 1 1) s).rd 0 = 0 := by
  decide +kernel

/-- 11 R187, the example: `bne s4, s5, loop` with loop four words back. -/
theorem test_branch_back : (ran (.bne 1 5 (-4)) cpt).me.pc = 0xFFF0 ∧ (ran (.beq 1 5 (-4)) cpt).me.pc = 0x10004 := by decide +kernel

/-- 13 R234: the address is s[A] + sext(IMM10) × size, and a byte is sign-extended. -/
theorem test_load_extends : let s := withBytes cpt 0x1000000 8 0x80FF
    (ran (.ldb 9 1 .own 1) s).rd 9 = 0xFFFFFFFFFFFFFF80 ∧ (ran (.ldhn 9 1 .own 0) s).rd 9 = 0x80FF := by decide +kernel

/-- 12 R208: VADDS stops at the ends of the tag's kind: 127 for I8 and 255 for N8. -/
theorem test_vadds_saturates :
    (let s := { cpt with me := { cpt.me with v := { cpt.me.v with slots := [(1, elems 8 .i8 [127, 0x80, 1, 2])] } } }
     ((List.range 4).map fun k => (reg (ran (.vadds 0 1 1 (.i 1)) s) 1).elem 8 k) = [127, 0x81, 2, 3]) ∧
    (let s := { cpt with me := { cpt.me with v := { cpt.me.v with slots := [(1, elems 8 .n8 [255, 0x80, 1, 2])] } } }
     ((List.range 4).map fun k => (reg (ran (.vadds 0 1 1 (.i 1)) s) 1).elem 8 k) = [255, 0x81, 2, 3]) := by decide +kernel

/-- 12 R223, the example: `vcvt.e4m3.p1 v6, v2` of 1.0, 500.0 and −0.3 writes elements 3 to 5. -/
theorem test_vcvt_example :
    let s := { withVl cpt 3 with me := { (withVl cpt 3).me with v := { (withVl cpt 3).me.v with
      slots := [(2, elems 32 .f32 [0x3F800000, 0x43FA0000, 0xBE99999A]), (6, elems 8 .raw [1, 2, 3, 4, 5, 6, 7])] } } }
    let t := ran (.vcvt 0 6 2 .e4m3 1 false) s
    ((List.range 7).map fun k => (reg t 6).elem 8 k) = [1, 2, 3, 0x38, 0x7E, 0xAA, 7] ∧ (reg t 6).tag = .e4m3 := by decide +kernel

/-- 13 R239, the example: bounds 4 and 20, indices 2, 5, 19 and 20: elements 1 and 2 are loaded and m7 is 0b0110. -/
theorem test_vldb_example :
    let s := withBytes (withBytes (withRegs cpt [(20, 0x10000), (21, 0x1400000004)]) 0x100000A 2 0x1234) 0x1000026 2 0x5678
    let s := { s with me := { s.me with v := { s.me.v with slots := [(9, elems 32 .i32 [2, 5, 19, 20]), (6, elems 16 .raw [7, 7, 7, 7])] } } }
    let t := ran (.vldb 0 6 20 9 .bf16) s
    ((List.range 4).map fun k => (reg t 6).elem 16 k) = [0, 0x1234, 0x5678, 0] ∧ (t.me.v.masks[7]).toNat = 6 := by decide +kernel

/-- 14 R257: a row (1, 2) of BF16 against columns of ones adds 3 to its accumulator row. -/
theorem test_mrow_adds :
    let s := cpt.modCore 0 fun x => { x with tiles := [(0, { tag := .bf16, depth := 2, bits := BitVec.ofNat 131072 ((2 ^ 4096 - 1) / 65535 * 0x3F80) })] }
    let t := ran (.mrow 0 7 8) (withVl s 2)
    elemAt ((t.core 0).accRow 1).bits.toNat 32 5 = 0x40400000 ∧ ((t.core 0).accRow 1).kind = .f32 := by decide +kernel

/-- 13 R245: the first proposal wins, the second answers its value. -/
theorem test_propose_twice : let t := ran (.propose 9 3 7 .die) { cpt with onces := [(0x102, {})] }
    t.rd 9 = 4 ∧ t.rd 10 = 0 ∧ (ran (.propose 11 3 8 .die) t).rd 11 = 4 ∧ (ran (.propose 11 3 8 .die) t).rd 12 = 1 := by decide +kernel

/-- 15 R275 R277: a waiting load writes its register when it is performed, with the bytes of then; words that name it wait. -/
theorem test_waiting_load :
    let t := ran (.ldd 9 1 .own 0) (late cpt)
    let u := { t with mem := t.mem.write 0x1000000 [5] }
    t.rd 9 = cpt.rd 9 ∧ (ran (.add 10 9 9) (late t)).me.pc = t.me.pc ∧ (performNth 0 u).rd 9 = 5 := by decide +kernel

/-- 07 R117: a copy that the die keeps answers LOST while the home clears the page, and not once its tag is old. -/
theorem test_cell_copy :
    let s := keepCell 0 0x102000 { cpt with onces := [(0x102, { cells := [(0, 7)] })] }
    let u := { s with onces := [(0x102, { clearing := true })] }
    let old := u.modDie 0 fun x => { x with cells := [(0x102000, { gen := 9, val := 7 })] }
    (ran (.propose 9 3 7 .die) u).rd 9 = 7 ∧ (ran (.propose 9 3 7 .die) u).rd 10 = 1 ∧ (ran (.propose 9 3 7 .die) old).rd 10 = 2 := by
  decide +kernel

/-- 13 R249: a barrier of one arrival completes its phase: GEN is 1. -/
theorem test_barrier_phase : (ran (.abtest 9 5) (ran (.abarrive 5) (ran (.abinit 5 8) cpt))).rd 9 = 1 := by decide +kernel

/-- 02 R14: a TRAP behind an entry that has not ended waits at its word with its fault. -/
theorem test_kept_fault : let t := ran (.trap 4) (late (queued cpt (.vadd 0 8 1 (.v 2))))
    t.me.status = .ready ∧ t.me.pc = 0x10004 ∧ t.me.wait.fault.map (fun f => (f.word, f.trap.cause)) = some (0xF8000403, .trap) := by
  decide +kernel

/-- 15 R277 R279: a release that waits has written nothing yet, and is performed with the store before it. -/
theorem test_waiting_release : let t := ran (.sto 1 7 .rel .device) (late (ran (.stw 8 1 .own 4) (late cpt)))
    t.mem = cpt.mem ∧ t.me.ord.path.length = 2 ∧ performNth 1 t = t ∧ (drainReleases t).me.ord.path = [] ∧
    (drainReleases t).mem.read 0x1000000 20 = [4, 0, 0, 0, 0, 0, 0, 0] ++ List.replicate 8 0 ++ [1, 0, 0, 0] := by decide +kernel

/-- 07 R120 R341: an OCLEAR from outside empties the page, and its generation goes on from 2^32 − 1 to 0. -/
theorem test_remote_oclear : let s := { cpt with onces := [(0x102, { gen := 0xFFFFFFFF, cells := [(0, 7)] })] }
    let t := ran (.remoteAccess { peer := some 3, hostMemory := false, addr := 0x1020000, op := .oclear }) s
    t.onces = [(0x102, { gen := 0 })] := by decide +kernel

/-- 07 R113: a page of a stream's pool that is freed is the stream's no more. -/
theorem test_freed_pool_page : ∀ x ∈ pooled, let t := ran (.shoot 9 1 2) { freeing 1 with streams := [(0x20000, x)] }
    (Map.getD t.streams 0x20000 rested).freed = [0x100] := by decide +kernel

/-- 22 R309: an illegal word on a Fliven strand saves the PC and the word and goes on at TVEC. -/
theorem test_fliven_illegal : let s := { flv with me := { flv.me with pc := 0x40, fl := { tvec := 0x100 } } }
    let t := ran (.unallocatedEncoding 0xBC000000) s
    t.me.pc = 0x100 ∧ t.me.fl.epc = 0x40 ∧ t.me.fl.faultVal = 0xBC000000 ∧ t.me.fl.ecause = 1 := by decide +kernel

/-- 27 R359: a start without a failure comes to READY in three steps. -/
theorem test_start : (ran (.ready true 0x1000) (ran (.diesUp true) (ran (.powerGood true) State.reset))).stage = .ready := by decide +kernel

end Sys2Proof.Tests
end

section
/-! SUPPORT. The scalar words of 11_ref_control: what an instruction that names registers does once these are written, the
numbers that the words of R182, R184 to R186 compute, the words that decode as the one-source rows of R182, and the branches
and relative jumps of R187 and R188. -/

namespace Sys2Proof.Proofs

open Sys2Proof.Machine Sys2Proof.Claim

/-! An instruction that names registers which nothing is still to write (02 R13). -/

/-- The words of the statements and the test of the model agree on when a register is still to be written. -/
theorem regsDue_of_free {s : State} {rs : List SReg} (h : Free s rs) : regsDue s rs = false := by
  obtain ⟨hq, hp⟩ := h
  have hw : willWrite s.me.queue rs = false := by
    simpa [willWrite, or_iff_not_imp_left] using hq
  have hl : loadDue s.me.ord.path rs = false := by
    simp only [loadDue, List.any_eq_false]
    intro p hm
    cases e : p.load with
    | none => simp
    | some l => simpa [or_iff_not_imp_left] using hp p hm l e
  simp [regsDue, hw, hl]

theorem free_mono {s : State} {rs qs : List SReg} (h : Free s rs) (hs : qs ⊆ rs) : Free s qs := by
  obtain ⟨hq, hp⟩ := h
  exact ⟨fun e he r hr => (hq e he r hr).imp_right fun hn hm => hn (hs hm),
    fun p hm l hl => (hp p hm l hl).imp_right fun hn hm => hn (hs hm)⟩

theorem named_of_free {s : State} {rs : List SReg} (h : Free s rs) (k : State → State) : named rs s k = k s :=
  named_free (regsDue_of_free h) k

theorem aluOp_of_free {d a b : SReg} {s : State} (h : Free s [d, a, b]) (f : Word → Word → Word) :
    aluOp d a b f s = passed (s.wr d (f (s.rd a) (s.rd b))) := named_of_free h _

theorem unaryOp_of_free {d a : SReg} {s : State} (h : Free s [d, a]) (f : Word → Word) :
    unaryOp d a f s = passed (s.wr d (f (s.rd a))) := named_of_free h _

theorem branchOp_of_free {a b : SReg} {s : State} (h : Free s [a, b]) (o : BitVec 12) (c : Word → Word → Bool) :
    branchOp a b o c s = goesTo s (if c (s.rd a) (s.rd b) then relTarget s.me.pc o else s.me.pc + 4) := by
  rw [branchOp, named_of_free h]
  split <;> rfl

/-! A word of each mould, once it is known what it writes or tests. -/

theorem exec_of_aluOp {i : Instr} {d a b : SReg} {s : State} {f : Word → Word → Word} {n : Int} (h : Free s [d, a, b])
    (hx : exec i s = .next (aluOp d a b f s)) (hv : BitVec.ofInt 64 n = f (s.rd a) (s.rd b)) :
    exec i s = .next (passed (s.wr d (BitVec.ofInt 64 n))) := by
  rw [hx, aluOp_of_free h, hv]

theorem exec_of_unaryOp {i : Instr} {d a : SReg} {s : State} {f : Word → Word} {n : Int} (h : Free s [d, a])
    (hx : exec i s = .next (unaryOp d a f s)) (hv : BitVec.ofInt 64 n = f (s.rd a)) :
    exec i s = .next (passed (s.wr d (BitVec.ofInt 64 n))) := by
  rw [hx, unaryOp_of_free h, hv]

theorem exec_of_named {i : Instr} {d : SReg} {s : State} {f : State → Word} {n : Int} (h : Free s [d])
    (hx : exec i s = .next (named [d] s fun u => (u.wr d (f u)).retire)) (hv : BitVec.ofInt 64 n = f s) :
    exec i s = .next (passed (s.wr d (BitVec.ofInt 64 n))) := by
  rw [hx, named_of_free h, hv]
  rfl

/-! Numbers modulo 2^64 (R182: "every result is taken modulo 2^64"). -/

theorem ofInt_toNat (x : Word) : BitVec.ofInt 64 x.toNat = x := by simp

theorem ofInt_sub (m n : Int) : BitVec.ofInt 64 (m - n) = BitVec.ofInt 64 m - BitVec.ofInt 64 n := by
  rw [Int.sub_eq_add_neg, BitVec.ofInt_add, BitVec.ofInt_neg, BitVec.sub_eq_add_neg]

theorem ofInt_toNat_add (x y : Word) : BitVec.ofInt 64 (x.toNat + y.toNat) = x + y := by
  rw [BitVec.ofInt_add, ofInt_toNat, ofInt_toNat]

theorem ofInt_toNat_sub (x y : Word) : BitVec.ofInt 64 (x.toNat - y.toNat) = x - y := by
  rw [ofInt_sub, ofInt_toNat, ofInt_toNat]

theorem ofInt_toNat_mul (x y : Word) : BitVec.ofInt 64 (x.toNat * y.toNat) = x * y := by
  rw [BitVec.ofInt_mul, ofInt_toNat, ofInt_toNat]

theorem ofInt_two_pow (n : Nat) : BitVec.ofInt 64 (2 ^ n) = BitVec.twoPow 64 n := by
  apply BitVec.eq_of_toNat_eq
  rw [BitVec.toNat_ofInt, BitVec.toNat_twoPow]
  norm_cast

theorem ofInt_mul_two_pow (m : Int) (n : Nat) : BitVec.ofInt 64 (m * 2 ^ n) = BitVec.ofInt 64 m <<< n := by
  rw [BitVec.ofInt_mul, BitVec.shiftLeft_eq_mul_twoPow, ofInt_two_pow]

theorem ofInt_toNat_shiftLeft (x : Word) (n : Nat) : BitVec.ofInt 64 (x.toNat * 2 ^ n) = x <<< n := by
  rw [ofInt_mul_two_pow, ofInt_toNat]

theorem ofInt_toNat_shiftRight (x : Word) (n : Nat) : BitVec.ofInt 64 (x.toNat / 2 ^ n) = x >>> n := by
  have h : (x.toNat / 2 ^ n : Int) = (x >>> n).toNat := by
    rw [BitVec.toNat_ushiftRight, Nat.shiftRight_eq_div_pow]
    norm_cast
  rw [h, ofInt_toNat]

theorem ofInt_toInt_shiftRight (x : Word) (n : Nat) : BitVec.ofInt 64 (x.toInt / 2 ^ n) = x.sshiftRight n := by
  rw [BitVec.sshiftRight, Int.shiftRight_eq_div_pow]
  norm_cast

theorem ofInt_asInt (b : Bool) : BitVec.ofInt 64 (asInt b) = boolWord b := by cases b <;> rfl

/-- The smaller and the larger of two words under a reading of words as integers that `BitVec.ofInt` undoes. -/
theorem ofInt_min {f : Word → Int} (hf : ∀ x, BitVec.ofInt 64 (f x) = x) (x y : Word) :
    BitVec.ofInt 64 (min (f x) (f y)) = if f x < f y then x else y := by
  split
  case isTrue h => rw [min_eq_left h.le, hf]
  case isFalse h => rw [min_eq_right (not_lt.mp h), hf]

theorem ofInt_max {f : Word → Int} (hf : ∀ x, BitVec.ofInt 64 (f x) = x) (x y : Word) :
    BitVec.ofInt 64 (max (f x) (f y)) = if f x < f y then y else x := by
  split
  case isTrue h => rw [max_eq_right h.le, hf]
  case isFalse h => rw [max_eq_left (not_lt.mp h), hf]

theorem ofInt_min_toInt (x y : Word) : BitVec.ofInt 64 (min x.toInt y.toInt) = if x.slt y then x else y := by
  simpa [BitVec.slt] using ofInt_min (fun _ => BitVec.ofInt_toInt) x y

theorem ofInt_max_toInt (x y : Word) : BitVec.ofInt 64 (max x.toInt y.toInt) = if x.slt y then y else x := by
  simpa [BitVec.slt] using ofInt_max (fun _ => BitVec.ofInt_toInt) x y

theorem ofInt_min_toNat (x y : Word) : BitVec.ofInt 64 (min x.toNat y.toNat) = if x.ult y then x else y := by
  simpa only [BitVec.ult, Int.ofNat_lt, decide_eq_true_eq] using ofInt_min ofInt_toNat x y

theorem ofInt_max_toNat (x y : Word) : BitVec.ofInt 64 (max x.toNat y.toNat) = if x.ult y then y else x := by
  simpa only [BitVec.ult, Int.ofNat_lt, decide_eq_true_eq] using ofInt_max ofInt_toNat x y

theorem ofInt_toNat_mul_high (x y : Word) :
    BitVec.ofInt 64 (x.toNat * y.toNat / 2 ^ 64) = BitVec.ofNat 64 (x.toNat * y.toNat / 2 ^ 64) := by
  rw [← BitVec.ofInt_natCast]
  norm_cast

/-! Division (R182, 04_numbers R46). -/

theorem ofInt_divSigned (x y : Word) :
    BitVec.ofInt 64 (if y = 0 then -1 else x.toInt.tdiv y.toInt) = divSigned x y := by
  unfold divSigned
  split <;> rfl

theorem ofInt_divUnsigned (x y : Word) :
    BitVec.ofInt 64 (if y = 0 then -1 else x.toNat / y.toNat) = divUnsigned x y := by
  unfold divUnsigned
  split
  · rfl
  · rw [← BitVec.ofInt_natCast, Int.natCast_ediv]

theorem ofInt_remSigned (x y : Word) :
    BitVec.ofInt 64 (if y = 0 then x.toInt else x.toInt.tmod y.toInt) = remSigned x y := by
  unfold remSigned
  split
  · exact BitVec.ofInt_toInt
  · rfl

theorem ofInt_remUnsigned (x y : Word) :
    BitVec.ofInt 64 (if y = 0 then x.toNat else x.toNat % y.toNat) = remUnsigned x y := by
  unfold remUnsigned
  split
  · exact ofInt_toNat x
  · rw [← BitVec.ofInt_natCast, Int.natCast_emod]

/-! Immediates (R184 to R186). -/

theorem toInt_imm12 (i : BitVec 12) : (imm12 i).toInt = i.toInt := BitVec.toInt_signExtend_of_le (by decide)

theorem ofInt_add_imm12 (x : Word) (i : BitVec 12) : BitVec.ofInt 64 (x.toNat + i.toInt) = x + imm12 i := by
  rw [BitVec.ofInt_add, ofInt_toNat]
  rfl

theorem ofInt_slt_imm12 (x : Word) (i : BitVec 12) :
    BitVec.ofInt 64 (asInt (decide (x.toInt < i.toInt))) = boolWord (x.slt (imm12 i)) := by
  rw [ofInt_asInt, BitVec.slt, toInt_imm12]

theorem ofInt_imm20 (i : BitVec 20) : BitVec.ofInt 64 (i.toInt * 4096) = imm20 i := ofInt_mul_two_pow i.toInt 12

theorem ofInt_add_imm20 (x : Word) (i : BitVec 20) : BitVec.ofInt 64 (x.toNat + i.toInt * 4096) = x + imm20 i := by
  rw [BitVec.ofInt_add, ofInt_toNat, ofInt_imm20]

/-! R182: the words of two sources. -/

theorem scalarTwoSourcesCompute : ScalarTwoSourcesCompute := by
  intro p hp d a b s h
  revert p
  simp only [scalarRules, List.forall_mem_cons]
  exact
   ⟨exec_of_aluOp h rfl (ofInt_toNat_add _ _),         -- ADD
    exec_of_aluOp h rfl (ofInt_toNat_sub _ _),         -- SUB
    exec_of_aluOp h rfl (ofInt_toNat _),               -- AND
    exec_of_aluOp h rfl (ofInt_toNat _),               -- OR
    exec_of_aluOp h rfl (ofInt_toNat _),               -- XOR
    exec_of_aluOp h rfl (ofInt_toNat _),               -- ANDN
    exec_of_aluOp h rfl (ofInt_toNat_shiftLeft _ _),   -- SHL
    exec_of_aluOp h rfl (ofInt_toNat_shiftRight _ _),  -- SHR
    exec_of_aluOp h rfl (ofInt_toInt_shiftRight _ _),  -- SAR
    exec_of_aluOp h rfl (ofInt_asInt _),               -- SLT
    exec_of_aluOp h rfl (ofInt_asInt _),               -- SLTN
    exec_of_aluOp h rfl (ofInt_min_toInt _ _),         -- MIN
    exec_of_aluOp h rfl (ofInt_max_toInt _ _),         -- MAX
    exec_of_aluOp h rfl (ofInt_min_toNat _ _),         -- MINN
    exec_of_aluOp h rfl (ofInt_max_toNat _ _),         -- MAXN
    exec_of_aluOp h rfl (ofInt_toNat_mul _ _),         -- MUL
    exec_of_aluOp h rfl rfl,                           -- MULH
    exec_of_aluOp h rfl (ofInt_toNat_mul_high _ _),    -- MULHN
    exec_of_aluOp h rfl (ofInt_divSigned _ _),         -- DIV
    exec_of_aluOp h rfl (ofInt_divUnsigned _ _),       -- DIVN
    exec_of_aluOp h rfl (ofInt_remSigned _ _),         -- REM
    exec_of_aluOp h rfl (ofInt_remUnsigned _ _),       -- REMN
    List.forall_mem_nil _⟩

/-! R182: "for the unary rows, B must be 0". Only OP 0x30 gives a one-source word, and there the decoder refuses a B that is
not 0. -/

/-- The words of one source of R182. -/
def unaryAlu : Instr → Bool
  | .clz _ _ | .ctz _ _ | .popc _ _ | .sextb _ _ | .sexth _ _ | .sextw _ _ => true
  | _ => false

/-- Where what is read from the word w is a word of one source, field B of w is 0. -/
def UnaryNoB (w : Nat) (o : Option Instr) : Prop := ∀ i ∈ o, unaryAlu i = true → w / 0x100 % 64 = 0

@[simp] theorem unaryNoB_none (w : Nat) : UnaryNoB w none := by simp [UnaryNoB]

@[simp] theorem unaryNoB_some (w : Nat) (i : Instr) : UnaryNoB w (some i) ↔ (unaryAlu i = true → w / 0x100 % 64 = 0) := by
  simp [UnaryNoB]

@[simp] theorem unaryNoB_ite (w : Nat) (c : Prop) [Decidable c] (o q : Option Instr) :
    UnaryNoB w (if c then o else q) ↔ (c → UnaryNoB w o) ∧ (¬c → UnaryNoB w q) := by
  split
  case isTrue h => simp [h]
  case isFalse h => simp [h]

@[simp] theorem unaryNoB_bind {α : Type} {w : Nat} (o : Option α) {f : α → Option Instr} (h : ∀ x, UnaryNoB w (f x)) :
    UnaryNoB w (o.bind f) := by
  cases o with
  | none => exact unaryNoB_none w
  | some x => exact h x

/-- The opcode that gives the words of one source: each of its six rows asks for B = 0. -/
theorem unaryNoB_decodeAlu (w : Nat) : UnaryNoB w (decodeAlu w) := by
  unfold decodeAlu
  split <;> simp [unaryAlu]

theorem unaryNoB_decodeVPlain (w : Nat) : UnaryNoB w (decodeVPlain w) := by
  unfold decodeVPlain
  split <;> simp [unaryAlu]

theorem unaryNoB_decodeVx00 (w : Nat) : UnaryNoB w (decodeVx00 w) := by
  unfold decodeVx00
  split
  · simp [unaryAlu]
  · split <;> simp [unaryAlu]

theorem unaryNoB_decodeVx0A (w : Nat) : UnaryNoB w (decodeVx0A w) := by
  unfold decodeVx0A
  split <;> simp [unaryAlu]

theorem unaryNoB_decodeVx0B (w : Nat) : UnaryNoB w (decodeVx0B w) := by
  unfold decodeVx0B
  split <;> simp [unaryAlu]

theorem unaryNoB_decodeVx18 (w : Nat) : UnaryNoB w (decodeVx18 w) := by
  unfold decodeVx18
  split <;> simp [unaryAlu]

theorem unaryNoB_decodeVx26 (w : Nat) : UnaryNoB w (decodeVx26 w) := by
  unfold decodeVx26
  split <;> simp [unaryAlu]

theorem unaryNoB_decodeVx (w : Nat) : UnaryNoB w (decodeVx w) := by
  unfold decodeVx
  split <;> simp [unaryAlu, unaryNoB_decodeVx00, unaryNoB_decodeVx0A, unaryNoB_decodeVx0B, unaryNoB_decodeVx18,
    unaryNoB_decodeVx26]

theorem unaryNoB_decodeVM (w : Nat) : UnaryNoB w (decodeVM w) := by
  unfold decodeVM
  split <;> simp [unaryAlu]

theorem unaryNoB_decodeVE (w : Nat) : UnaryNoB w (decodeVE w) := by
  unfold decodeVE
  split <;> simp [unaryAlu]

theorem unaryNoB_decodeImm (w : Nat) : UnaryNoB w (decodeImm w) := by
  unfold decodeImm
  split <;> simp [unaryAlu]

theorem unaryNoB_decodeImm2 (w : Nat) : UnaryNoB w (decodeImm2 w) := by
  unfold decodeImm2
  split <;> simp [unaryAlu]

theorem unaryNoB_decodeBr1 (w : Nat) : UnaryNoB w (decodeBr1 w) := by
  unfold decodeBr1
  split <;> simp [unaryAlu]

theorem unaryNoB_decodeBr2 (w : Nat) : UnaryNoB w (decodeBr2 w) := by
  unfold decodeBr2
  split <;> simp [unaryAlu]

theorem unaryNoB_decodeJump (w : Nat) : UnaryNoB w (decodeJump w) := by
  unfold decodeJump
  split <;> simp [unaryAlu]

theorem unaryNoB_decodeLd (w : Nat) : UnaryNoB w (decodeLd w) := by
  unfold decodeLd
  split <;> simp [unaryAlu]

theorem unaryNoB_decodeLdn (w : Nat) : UnaryNoB w (decodeLdn w) := by
  unfold decodeLdn
  split <;> simp [unaryAlu]

theorem unaryNoB_decodeSt (w : Nat) : UnaryNoB w (decodeSt w) := by
  unfold decodeSt
  split <;> simp [unaryAlu]

theorem unaryNoB_decodeAmo (w : Nat) : UnaryNoB w (decodeAmo w) := by
  unfold decodeAmo
  split <;> simp [unaryAlu]

theorem unaryNoB_decodeOrd (w : Nat) : UnaryNoB w (decodeOrd w) := by
  unfold decodeOrd
  split <;> simp [unaryAlu]

theorem unaryNoB_decodeSys (w : Nat) : UnaryNoB w (decodeSys w) := by
  unfold decodeSys
  split <;> simp [unaryAlu]

theorem unaryNoB_decodeFields (w : Nat) : UnaryNoB w (decodeFields w) := by
  unfold decodeFields
  split <;> simp [unaryAlu, unaryNoB_decodeAlu, unaryNoB_decodeVPlain, unaryNoB_decodeVx, unaryNoB_decodeVM, unaryNoB_decodeVE,
    unaryNoB_decodeImm, unaryNoB_decodeImm2, unaryNoB_decodeBr1, unaryNoB_decodeBr2, unaryNoB_decodeJump, unaryNoB_decodeLd,
    unaryNoB_decodeLdn, unaryNoB_decodeSt, unaryNoB_decodeAmo, unaryNoB_decodeOrd, unaryNoB_decodeSys]

theorem decodeFields_of_decode {w : Word32} {i : Instr} (h : decode w = .ok i) : decodeFields w.toNat = some i := by
  unfold decode at h
  split at h
  case h_1 => cases h
  case h_2 j hj =>
    split at h
    · cases h
      exact hj
    · cases h

/-- R182: a word that decodes as one of one source has B = 0. -/
theorem decode_unaryAlu {w : Word32} {i : Instr} (hu : unaryAlu i = true) (h : decode w = .ok i) : w.toNat / 256 % 64 = 0 :=
  unaryNoB_decodeFields w.toNat i (decodeFields_of_decode h) hu

/-! R182 R184 R185 R186: the words of one source, with an immediate, and of none. -/

theorem scalarOneSourceCompute : ScalarOneSourceCompute := by
  intro d a s h
  have hd : Free s [d] := free_mono h (by simp)
  refine ⟨?unary, ?immediate, ?shift, fun i => ⟨?lui, ?addpc⟩⟩
  case unary =>
    simp only [unaryScalarRules, List.forall_mem_cons]
    exact
     ⟨⟨exec_of_unaryOp h rfl (BitVec.ofInt_natCast _ _), fun _ => decode_unaryAlu rfl⟩,
      ⟨exec_of_unaryOp h rfl (BitVec.ofInt_natCast _ _), fun _ => decode_unaryAlu rfl⟩,
      ⟨exec_of_unaryOp h rfl (BitVec.ofInt_natCast _ _), fun _ => decode_unaryAlu rfl⟩,
      ⟨exec_of_unaryOp h rfl rfl, fun _ => decode_unaryAlu rfl⟩,
      ⟨exec_of_unaryOp h rfl rfl, fun _ => decode_unaryAlu rfl⟩,
      ⟨exec_of_unaryOp h rfl rfl, fun _ => decode_unaryAlu rfl⟩,
      List.forall_mem_nil _⟩
  case immediate =>
    simp only [immediateRules, List.forall_mem_cons]
    exact
     ⟨fun i => exec_of_unaryOp h rfl (ofInt_add_imm12 _ i),
      fun _ => exec_of_unaryOp h rfl (ofInt_toNat _),
      fun _ => exec_of_unaryOp h rfl (ofInt_toNat _),
      fun _ => exec_of_unaryOp h rfl (ofInt_toNat _),
      fun i => exec_of_unaryOp h rfl (ofInt_slt_imm12 _ i),
      fun _ => exec_of_unaryOp h rfl (ofInt_asInt _),
      List.forall_mem_nil _⟩
  case shift =>
    simp only [shiftRules, List.forall_mem_cons]
    exact
     ⟨fun n => exec_of_unaryOp h rfl (ofInt_toNat_shiftLeft _ n.toNat),
      fun n => exec_of_unaryOp h rfl (ofInt_toNat_shiftRight _ n.toNat),
      fun n => exec_of_unaryOp h rfl (ofInt_toInt_shiftRight _ n.toNat),
      List.forall_mem_nil _⟩
  case lui => exact exec_of_named hd rfl (ofInt_imm20 i)
  case addpc => exact exec_of_named hd rfl (ofInt_add_imm20 s.me.pc i)

/-- Settles O11: each word has its mould, and its row's number is the word that the model writes. -/
theorem scalarWordsCompute : Obligations.ScalarWordsCompute := ⟨scalarTwoSourcesCompute, scalarOneSourceCompute⟩

/-! R187 R188: branches and relative jumps; their target (R180). -/

theorem relTarget_eq_target {n : Nat} (s : State) (o : BitVec n) : relTarget s.me.pc o = target s o := by
  have h : BitVec.ofInt 64 (4 * o.toInt) = o.signExtend 64 <<< 2 := by
    rw [Int.mul_comm]
    exact ofInt_mul_two_pow o.toInt 2
  rw [relTarget, target, BitVec.ofInt_add, ofInt_toNat, h]

theorem exec_of_branchOp {i : Instr} {a b : SReg} {o : BitVec 12} {s : State} {c : Word → Word → Bool} {t : Bool}
    (h : Free s [a, b]) (hx : exec i s = .next (branchOp a b o c s)) (ht : t = c (s.rd a) (s.rd b)) :
    exec i s = .next (goesTo s (if t then target s o else s.me.pc + 4)) := by
  rw [hx, branchOp_of_free h, relTarget_eq_target, ht]

/-! The tests of R187 as the model computes them. -/

theorem decide_ne (x y : Word) : decide (x ≠ y) = (x != y) := decide_not

theorem decide_toInt_le (x y : Word) : decide (y.toInt ≤ x.toInt) = !x.slt y := by
  rw [BitVec.slt, ← decide_not]
  simp only [not_lt]

theorem decide_toNat_le (x y : Word) : decide (y.toNat ≤ x.toNat) = !x.ult y := by
  rw [BitVec.ult, ← decide_not]
  simp only [not_lt]

theorem bit_beq_one (x : Word) (n : Nat) : (x.toNat / 2 ^ n % 2 == 1) = x.getLsbD n := by
  rw [BitVec.getLsbD, Nat.testBit_eq_decide_div_mod_eq]
  rfl

theorem bit_beq_zero (x : Word) (n : Nat) : (x.toNat / 2 ^ n % 2 == 0) = !x.getLsbD n := by
  rw [← bit_beq_one]
  rcases Nat.mod_two_eq_zero_or_one (x.toNat / 2 ^ n) with h | h <;> rw [h] <;> rfl

theorem branches_go : ∀ p ∈ branchRules, ∀ (a b : SReg) (o : BitVec 12) (s : State), Free s [a, b] →
    exec (p.1 a b o) s = .next (goesTo s (if p.2 (s.rd a) (s.rd b) then target s o else s.me.pc + 4)) := by
  intro p hp a b o s h
  revert p
  simp only [branchRules, List.forall_mem_cons]
  exact
   ⟨exec_of_branchOp h rfl rfl,                    -- BEQ
    exec_of_branchOp h rfl (decide_ne _ _),        -- BNE
    exec_of_branchOp h rfl rfl,                    -- BLT
    exec_of_branchOp h rfl (decide_toInt_le _ _),  -- BGE
    exec_of_branchOp h rfl rfl,                    -- BLTN
    exec_of_branchOp h rfl (decide_toNat_le _ _),  -- BGEN
    exec_of_branchOp h rfl (bit_beq_one _ _),      -- BBS
    exec_of_branchOp h rfl (bit_beq_zero _ _),     -- BBC
    List.forall_mem_nil _⟩

theorem exec_j (o : BitVec 25) (s : State) : exec (.j o) s = .next (goesTo s (target s o)) := by
  rw [← relTarget_eq_target]
  rfl

theorem exec_call_of_free {s : State} (h : Free s [63]) (o : BitVec 25) :
    exec (.call o) s = .next (goesTo (s.wr 63 (s.me.pc + 4)) (target s o)) := by
  rw [← relTarget_eq_target]
  exact congrArg Host.Outcome.next (named_of_free h _)

/-- Settles O12: each branch has its mould with the test of its row, and a relative target is the same number
modulo 2^64 however it is scaled. -/
theorem branchesAndRelativeJumpsGo : Obligations.BranchesAndRelativeJumpsGo :=
  ⟨branches_go, exec_j, fun o _ h => exec_call_of_free h o⟩

end Sys2Proof.Proofs
end
